-- ==== Sys2Proof/Word.lean ====
section
/-! DEFINITION. The two word types of the machine (R5): a byte, and a 16-bit address. -/

namespace Sys2Proof

/-- A byte: every register but `PC`, every bus transfer and every opcode (R5, R51). -/
abbrev Byte := BitVec 8

/-- A 16-bit address of the one address space, and the width of `PC` (R5, R44). -/
abbrev Addr := BitVec 16

end Sys2Proof
end

