-- ==== Sys2Proof/Machine/Bits.lean ====
section
/-! DEFINITION. The notation of R7 and R8: bit selection, byte order, zero and sign extension. -/

namespace Sys2Proof

/-- `zext_16(b)` (R8). -/
def zext16 (b : Byte) : Addr := b.setWidth 16

/-- `sext_16(b)` (R8): bit 7 copied into bits 15..8. -/
def sext16 (b : Byte) : Addr := b.signExtend 16

/-- `hi:lo` (R7): the 16-bit value `hi * 256 + lo`. -/
def joinBytes (hi lo : Byte) : Addr := hi ++ lo

/-- `v[7:0]` of a 16-bit value (R7). -/
def loByte (a : Addr) : Byte := a.extractLsb' 0 8

/-- `v[15:8]` of a 16-bit value (R7). -/
def hiByte (a : Addr) : Byte := a.extractLsb' 8 8

/-- `v[i]` of a byte (R7), as a Boolean. -/
def bitOf (b : Byte) (i : Nat) : Bool := b.getLsbD i

/-- A flag as the number 0 or 1, for the sums of R121 and R122. -/
def flagNat (f : Bool) : Nat := if f then 1 else 0

end Sys2Proof
end

