-- ==== Sys2Proof/Syntax.lean ====
section
/-! DEFINITION. The syntax: the addressing modes (R87), the operation classes (R98), the mnemonics (R65), and `Instr`,
one constructor per row of spec/opcode_table.json, its operand typed by its mode (R63). -/

namespace Sys2Proof

/-- The thirteen addressing modes (R87). -/
inductive Mode where
  | implied
  | accumulator
  | immediate
  | zeroPage
  | zeroPageX
  | zeroPageY
  | absolute
  | absoluteX
  | absoluteY
  | indirectX
  | indirectY
  | relative
  | absoluteIndirect
  deriving DecidableEq, Repr

/-- The operation classes (R98); the control and stack sequences of R109 and R110 have a class each. -/
inductive OpClass where
  | read
  | write
  | rmw
  | accumulator
  | implied
  | branch
  | push
  | pull
  | jump
  | jumpIndirect
  | call
  | ret
  | rti
  deriving DecidableEq, Repr

/-- The mnemonics of the dispatch table (R65). Byte $00 has none (R73). -/
inductive Mnemonic where
  | adc | and | asl | bcc | bcs | beq | bit | bmi | bne | bpl | bvc | bvs | clc | cld
  | cli | clv | cmp | cpx | cpy | dec | dex | dey | eor | inc | inx | iny | jmp | jsr
  | lda | ldx | ldy | lsr | nop | ora | pha | php | pla | plp | rol | ror | rti | rts
  | sbc | sec | sed | sei | sta | stx | sty | tax | tay | tsx | txa | txs | tya
  deriving DecidableEq, Repr

/-- The instructions: the 150 rows of the dispatch table and byte $00 (R64, R65, R218).
An operand is the value R63 gives it: `imm` an immediate byte, `z` a zero-page address or pointer, `a` an
absolute address, `ptr` the pointer of JMP indirect, `offset` the two's-complement branch offset. -/
inductive Instr where
  /-- `byte $00, halt`, $00, R218. -/
  | halt
  /-- `ORA ($nn,X)`, $01, R137. -/
  | oraIndX (z : Byte)
  /-- `ORA $nn`, $05, R137. -/
  | oraZp (z : Byte)
  /-- `ASL $nn`, $06, R123. -/
  | aslZp (z : Byte)
  /-- `PHP`, $08, R201. -/
  | php
  /-- `ORA #$nn`, $09, R137. -/
  | oraImm (imm : Byte)
  /-- `ASL A`, $0A, R123. -/
  | aslAcc
  /-- `ORA $nnnn`, $0D, R137. -/
  | oraAbs (a : Addr)
  /-- `ASL $nnnn`, $0E, R123. -/
  | aslAbs (a : Addr)
  /-- `BPL $nnnn`, $10, R191. -/
  | bpl (offset : Byte)
  /-- `ORA ($nn),Y`, $11, R137. -/
  | oraIndY (z : Byte)
  /-- `ORA $nn,X`, $15, R137. -/
  | oraZpX (z : Byte)
  /-- `ASL $nn,X`, $16, R123. -/
  | aslZpX (z : Byte)
  /-- `CLC`, $18, R210. -/
  | clc
  /-- `ORA $nnnn,Y`, $19, R137. -/
  | oraAbsY (a : Addr)
  /-- `ORA $nnnn,X`, $1D, R137. -/
  | oraAbsX (a : Addr)
  /-- `ASL $nnnn,X`, $1E, R123. -/
  | aslAbsX (a : Addr)
  /-- `JSR $nnnn`, $20, R182. -/
  | jsr (a : Addr)
  /-- `AND ($nn,X)`, $21, R136. -/
  | andIndX (z : Byte)
  /-- `BIT $nn`, $24, R139. -/
  | bitZp (z : Byte)
  /-- `AND $nn`, $25, R136. -/
  | andZp (z : Byte)
  /-- `ROL $nn`, $26, R125. -/
  | rolZp (z : Byte)
  /-- `PLP`, $28, R203. -/
  | plp
  /-- `AND #$nn`, $29, R136. -/
  | andImm (imm : Byte)
  /-- `ROL A`, $2A, R125. -/
  | rolAcc
  /-- `BIT $nnnn`, $2C, R139. -/
  | bitAbs (a : Addr)
  /-- `AND $nnnn`, $2D, R136. -/
  | andAbs (a : Addr)
  /-- `ROL $nnnn`, $2E, R125. -/
  | rolAbs (a : Addr)
  /-- `BMI $nnnn`, $30, R190. -/
  | bmi (offset : Byte)
  /-- `AND ($nn),Y`, $31, R136. -/
  | andIndY (z : Byte)
  /-- `AND $nn,X`, $35, R136. -/
  | andZpX (z : Byte)
  /-- `ROL $nn,X`, $36, R125. -/
  | rolZpX (z : Byte)
  /-- `SEC`, $38, R211. -/
  | sec
  /-- `AND $nnnn,Y`, $39, R136. -/
  | andAbsY (a : Addr)
  /-- `AND $nnnn,X`, $3D, R136. -/
  | andAbsX (a : Addr)
  /-- `ROL $nnnn,X`, $3E, R125. -/
  | rolAbsX (a : Addr)
  /-- `RTI`, $40, R184. -/
  | rti
  /-- `EOR ($nn,X)`, $41, R138. -/
  | eorIndX (z : Byte)
  /-- `EOR $nn`, $45, R138. -/
  | eorZp (z : Byte)
  /-- `LSR $nn`, $46, R124. -/
  | lsrZp (z : Byte)
  /-- `PHA`, $48, R200. -/
  | pha
  /-- `EOR #$nn`, $49, R138. -/
  | eorImm (imm : Byte)
  /-- `LSR A`, $4A, R124. -/
  | lsrAcc
  /-- `JMP $nnnn`, $4C, R181. -/
  | jmpAbs (a : Addr)
  /-- `EOR $nnnn`, $4D, R138. -/
  | eorAbs (a : Addr)
  /-- `LSR $nnnn`, $4E, R124. -/
  | lsrAbs (a : Addr)
  /-- `BVC $nnnn`, $50, R192. -/
  | bvc (offset : Byte)
  /-- `EOR ($nn),Y`, $51, R138. -/
  | eorIndY (z : Byte)
  /-- `EOR $nn,X`, $55, R138. -/
  | eorZpX (z : Byte)
  /-- `LSR $nn,X`, $56, R124. -/
  | lsrZpX (z : Byte)
  /-- `CLI`, $58, R212. -/
  | cli
  /-- `EOR $nnnn,Y`, $59, R138. -/
  | eorAbsY (a : Addr)
  /-- `EOR $nnnn,X`, $5D, R138. -/
  | eorAbsX (a : Addr)
  /-- `LSR $nnnn,X`, $5E, R124. -/
  | lsrAbsX (a : Addr)
  /-- `RTS`, $60, R183. -/
  | rts
  /-- `ADC ($nn,X)`, $61, R121. -/
  | adcIndX (z : Byte)
  /-- `ADC $nn`, $65, R121. -/
  | adcZp (z : Byte)
  /-- `ROR $nn`, $66, R126. -/
  | rorZp (z : Byte)
  /-- `PLA`, $68, R202. -/
  | pla
  /-- `ADC #$nn`, $69, R121. -/
  | adcImm (imm : Byte)
  /-- `ROR A`, $6A, R126. -/
  | rorAcc
  /-- `JMP ($nnnn)`, $6C, R181. -/
  | jmpInd (ptr : Addr)
  /-- `ADC $nnnn`, $6D, R121. -/
  | adcAbs (a : Addr)
  /-- `ROR $nnnn`, $6E, R126. -/
  | rorAbs (a : Addr)
  /-- `BVS $nnnn`, $70, R193. -/
  | bvs (offset : Byte)
  /-- `ADC ($nn),Y`, $71, R121. -/
  | adcIndY (z : Byte)
  /-- `ADC $nn,X`, $75, R121. -/
  | adcZpX (z : Byte)
  /-- `ROR $nn,X`, $76, R126. -/
  | rorZpX (z : Byte)
  /-- `SEI`, $78, R213. -/
  | sei
  /-- `ADC $nnnn,Y`, $79, R121. -/
  | adcAbsY (a : Addr)
  /-- `ADC $nnnn,X`, $7D, R121. -/
  | adcAbsX (a : Addr)
  /-- `ROR $nnnn,X`, $7E, R126. -/
  | rorAbsX (a : Addr)
  /-- `STA ($nn,X)`, $81, R164. -/
  | staIndX (z : Byte)
  /-- `STY $nn`, $84, R166. -/
  | styZp (z : Byte)
  /-- `STA $nn`, $85, R164. -/
  | staZp (z : Byte)
  /-- `STX $nn`, $86, R165. -/
  | stxZp (z : Byte)
  /-- `DEY`, $88, R135. -/
  | dey
  /-- `TXA`, $8A, R169. -/
  | txa
  /-- `STY $nnnn`, $8C, R166. -/
  | styAbs (a : Addr)
  /-- `STA $nnnn`, $8D, R164. -/
  | staAbs (a : Addr)
  /-- `STX $nnnn`, $8E, R165. -/
  | stxAbs (a : Addr)
  /-- `BCC $nnnn`, $90, R186. -/
  | bcc (offset : Byte)
  /-- `STA ($nn),Y`, $91, R164. -/
  | staIndY (z : Byte)
  /-- `STY $nn,X`, $94, R166. -/
  | styZpX (z : Byte)
  /-- `STA $nn,X`, $95, R164. -/
  | staZpX (z : Byte)
  /-- `STX $nn,Y`, $96, R165. -/
  | stxZpY (z : Byte)
  /-- `TYA`, $98, R170. -/
  | tya
  /-- `STA $nnnn,Y`, $99, R164. -/
  | staAbsY (a : Addr)
  /-- `TXS`, $9A, R172. -/
  | txs
  /-- `STA $nnnn,X`, $9D, R164. -/
  | staAbsX (a : Addr)
  /-- `LDY #$nn`, $A0, R163. -/
  | ldyImm (imm : Byte)
  /-- `LDA ($nn,X)`, $A1, R161. -/
  | ldaIndX (z : Byte)
  /-- `LDX #$nn`, $A2, R162. -/
  | ldxImm (imm : Byte)
  /-- `LDY $nn`, $A4, R163. -/
  | ldyZp (z : Byte)
  /-- `LDA $nn`, $A5, R161. -/
  | ldaZp (z : Byte)
  /-- `LDX $nn`, $A6, R162. -/
  | ldxZp (z : Byte)
  /-- `TAY`, $A8, R168. -/
  | tay
  /-- `LDA #$nn`, $A9, R161. -/
  | ldaImm (imm : Byte)
  /-- `TAX`, $AA, R167. -/
  | tax
  /-- `LDY $nnnn`, $AC, R163. -/
  | ldyAbs (a : Addr)
  /-- `LDA $nnnn`, $AD, R161. -/
  | ldaAbs (a : Addr)
  /-- `LDX $nnnn`, $AE, R162. -/
  | ldxAbs (a : Addr)
  /-- `BCS $nnnn`, $B0, R187. -/
  | bcs (offset : Byte)
  /-- `LDA ($nn),Y`, $B1, R161. -/
  | ldaIndY (z : Byte)
  /-- `LDY $nn,X`, $B4, R163. -/
  | ldyZpX (z : Byte)
  /-- `LDA $nn,X`, $B5, R161. -/
  | ldaZpX (z : Byte)
  /-- `LDX $nn,Y`, $B6, R162. -/
  | ldxZpY (z : Byte)
  /-- `CLV`, $B8, R216. -/
  | clv
  /-- `LDA $nnnn,Y`, $B9, R161. -/
  | ldaAbsY (a : Addr)
  /-- `TSX`, $BA, R171. -/
  | tsx
  /-- `LDY $nnnn,X`, $BC, R163. -/
  | ldyAbsX (a : Addr)
  /-- `LDA $nnnn,X`, $BD, R161. -/
  | ldaAbsX (a : Addr)
  /-- `LDX $nnnn,Y`, $BE, R162. -/
  | ldxAbsY (a : Addr)
  /-- `CPY #$nn`, $C0, R129. -/
  | cpyImm (imm : Byte)
  /-- `CMP ($nn,X)`, $C1, R127. -/
  | cmpIndX (z : Byte)
  /-- `CPY $nn`, $C4, R129. -/
  | cpyZp (z : Byte)
  /-- `CMP $nn`, $C5, R127. -/
  | cmpZp (z : Byte)
  /-- `DEC $nn`, $C6, R131. -/
  | decZp (z : Byte)
  /-- `INY`, $C8, R133. -/
  | iny
  /-- `CMP #$nn`, $C9, R127. -/
  | cmpImm (imm : Byte)
  /-- `DEX`, $CA, R134. -/
  | dex
  /-- `CPY $nnnn`, $CC, R129. -/
  | cpyAbs (a : Addr)
  /-- `CMP $nnnn`, $CD, R127. -/
  | cmpAbs (a : Addr)
  /-- `DEC $nnnn`, $CE, R131. -/
  | decAbs (a : Addr)
  /-- `BNE $nnnn`, $D0, R189. -/
  | bne (offset : Byte)
  /-- `CMP ($nn),Y`, $D1, R127. -/
  | cmpIndY (z : Byte)
  /-- `CMP $nn,X`, $D5, R127. -/
  | cmpZpX (z : Byte)
  /-- `DEC $nn,X`, $D6, R131. -/
  | decZpX (z : Byte)
  /-- `CLD`, $D8, R214. -/
  | cld
  /-- `CMP $nnnn,Y`, $D9, R127. -/
  | cmpAbsY (a : Addr)
  /-- `CMP $nnnn,X`, $DD, R127. -/
  | cmpAbsX (a : Addr)
  /-- `DEC $nnnn,X`, $DE, R131. -/
  | decAbsX (a : Addr)
  /-- `CPX #$nn`, $E0, R128. -/
  | cpxImm (imm : Byte)
  /-- `SBC ($nn,X)`, $E1, R122. -/
  | sbcIndX (z : Byte)
  /-- `CPX $nn`, $E4, R128. -/
  | cpxZp (z : Byte)
  /-- `SBC $nn`, $E5, R122. -/
  | sbcZp (z : Byte)
  /-- `INC $nn`, $E6, R130. -/
  | incZp (z : Byte)
  /-- `INX`, $E8, R132. -/
  | inx
  /-- `SBC #$nn`, $E9, R122. -/
  | sbcImm (imm : Byte)
  /-- `NOP`, $EA, R217. -/
  | nop
  /-- `CPX $nnnn`, $EC, R128. -/
  | cpxAbs (a : Addr)
  /-- `SBC $nnnn`, $ED, R122. -/
  | sbcAbs (a : Addr)
  /-- `INC $nnnn`, $EE, R130. -/
  | incAbs (a : Addr)
  /-- `BEQ $nnnn`, $F0, R188. -/
  | beq (offset : Byte)
  /-- `SBC ($nn),Y`, $F1, R122. -/
  | sbcIndY (z : Byte)
  /-- `SBC $nn,X`, $F5, R122. -/
  | sbcZpX (z : Byte)
  /-- `INC $nn,X`, $F6, R130. -/
  | incZpX (z : Byte)
  /-- `SED`, $F8, R215. -/
  | sed
  /-- `SBC $nnnn,Y`, $F9, R122. -/
  | sbcAbsY (a : Addr)
  /-- `SBC $nnnn,X`, $FD, R122. -/
  | sbcAbsX (a : Addr)
  /-- `INC $nnnn,X`, $FE, R130. -/
  | incAbsX (a : Addr)
  deriving DecidableEq, Repr

end Sys2Proof
end

