-- ==== Sys2Proof/Decode.lean ====
section
/-! DEFINITION. The opcode map and the descriptors (R32, R64, R65), the decoder, total on any bytes, and the
encoder. -/

namespace Sys2Proof

/-- The three formats (R61): the instruction itself, or how it is made from its operand. -/
inductive Format where
  | f1 (i : Instr)
  | f2 (make : Byte → Instr)
  | f3 (make : Addr → Instr)

/-- The operand bytes a format takes (R61, R62). -/
def Format.operandBytes : Format → Nat
  | .f1 _ => 0
  | .f2 _ => 1
  | .f3 _ => 2

/-- The operand bytes a mode takes (R62). -/
def Mode.operandBytes : Mode → Nat
  | .implied => 0
  | .accumulator => 0
  | .immediate => 1
  | .zeroPage => 1
  | .zeroPageX => 1
  | .zeroPageY => 1
  | .indirectX => 1
  | .indirectY => 1
  | .relative => 1
  | .absolute => 2
  | .absoluteX => 2
  | .absoluteY => 2
  | .absoluteIndirect => 2

/-- An opcode descriptor (R32, R65): `cycles` is the base count, T1 included (R84, R9). -/
structure Row where
  mnemonic : Mnemonic
  mode : Mode
  cls : OpClass
  cycles : Nat
  format : Format

/-- One row of the opcode map (R64), by the high nibble of the opcode: sixteen entries, by the low nibble.
`none` is a byte outside the dispatch table (R70), $00 among them (R65, R218). -/
def opcodeRow : Nat → List (Option Row)
  | 0 => [
    none,
    some ⟨.ora, .indirectX, .read, 6, .f2 .oraIndX⟩,
    none,
    none,
    none,
    some ⟨.ora, .zeroPage, .read, 3, .f2 .oraZp⟩,
    some ⟨.asl, .zeroPage, .rmw, 5, .f2 .aslZp⟩,
    none,
    some ⟨.php, .implied, .push, 3, .f1 .php⟩,
    some ⟨.ora, .immediate, .read, 2, .f2 .oraImm⟩,
    some ⟨.asl, .accumulator, .accumulator, 2, .f1 .aslAcc⟩,
    none,
    none,
    some ⟨.ora, .absolute, .read, 4, .f3 .oraAbs⟩,
    some ⟨.asl, .absolute, .rmw, 6, .f3 .aslAbs⟩,
    none]
  | 1 => [
    some ⟨.bpl, .relative, .branch, 2, .f2 .bpl⟩,
    some ⟨.ora, .indirectY, .read, 5, .f2 .oraIndY⟩,
    none,
    none,
    none,
    some ⟨.ora, .zeroPageX, .read, 4, .f2 .oraZpX⟩,
    some ⟨.asl, .zeroPageX, .rmw, 6, .f2 .aslZpX⟩,
    none,
    some ⟨.clc, .implied, .implied, 2, .f1 .clc⟩,
    some ⟨.ora, .absoluteY, .read, 4, .f3 .oraAbsY⟩,
    none,
    none,
    none,
    some ⟨.ora, .absoluteX, .read, 4, .f3 .oraAbsX⟩,
    some ⟨.asl, .absoluteX, .rmw, 7, .f3 .aslAbsX⟩,
    none]
  | 2 => [
    some ⟨.jsr, .absolute, .call, 6, .f3 .jsr⟩,
    some ⟨.and, .indirectX, .read, 6, .f2 .andIndX⟩,
    none,
    none,
    some ⟨.bit, .zeroPage, .read, 3, .f2 .bitZp⟩,
    some ⟨.and, .zeroPage, .read, 3, .f2 .andZp⟩,
    some ⟨.rol, .zeroPage, .rmw, 5, .f2 .rolZp⟩,
    none,
    some ⟨.plp, .implied, .pull, 4, .f1 .plp⟩,
    some ⟨.and, .immediate, .read, 2, .f2 .andImm⟩,
    some ⟨.rol, .accumulator, .accumulator, 2, .f1 .rolAcc⟩,
    none,
    some ⟨.bit, .absolute, .read, 4, .f3 .bitAbs⟩,
    some ⟨.and, .absolute, .read, 4, .f3 .andAbs⟩,
    some ⟨.rol, .absolute, .rmw, 6, .f3 .rolAbs⟩,
    none]
  | 3 => [
    some ⟨.bmi, .relative, .branch, 2, .f2 .bmi⟩,
    some ⟨.and, .indirectY, .read, 5, .f2 .andIndY⟩,
    none,
    none,
    none,
    some ⟨.and, .zeroPageX, .read, 4, .f2 .andZpX⟩,
    some ⟨.rol, .zeroPageX, .rmw, 6, .f2 .rolZpX⟩,
    none,
    some ⟨.sec, .implied, .implied, 2, .f1 .sec⟩,
    some ⟨.and, .absoluteY, .read, 4, .f3 .andAbsY⟩,
    none,
    none,
    none,
    some ⟨.and, .absoluteX, .read, 4, .f3 .andAbsX⟩,
    some ⟨.rol, .absoluteX, .rmw, 7, .f3 .rolAbsX⟩,
    none]
  | 4 => [
    some ⟨.rti, .implied, .rti, 6, .f1 .rti⟩,
    some ⟨.eor, .indirectX, .read, 6, .f2 .eorIndX⟩,
    none,
    none,
    none,
    some ⟨.eor, .zeroPage, .read, 3, .f2 .eorZp⟩,
    some ⟨.lsr, .zeroPage, .rmw, 5, .f2 .lsrZp⟩,
    none,
    some ⟨.pha, .implied, .push, 3, .f1 .pha⟩,
    some ⟨.eor, .immediate, .read, 2, .f2 .eorImm⟩,
    some ⟨.lsr, .accumulator, .accumulator, 2, .f1 .lsrAcc⟩,
    none,
    some ⟨.jmp, .absolute, .jump, 3, .f3 .jmpAbs⟩,
    some ⟨.eor, .absolute, .read, 4, .f3 .eorAbs⟩,
    some ⟨.lsr, .absolute, .rmw, 6, .f3 .lsrAbs⟩,
    none]
  | 5 => [
    some ⟨.bvc, .relative, .branch, 2, .f2 .bvc⟩,
    some ⟨.eor, .indirectY, .read, 5, .f2 .eorIndY⟩,
    none,
    none,
    none,
    some ⟨.eor, .zeroPageX, .read, 4, .f2 .eorZpX⟩,
    some ⟨.lsr, .zeroPageX, .rmw, 6, .f2 .lsrZpX⟩,
    none,
    some ⟨.cli, .implied, .implied, 2, .f1 .cli⟩,
    some ⟨.eor, .absoluteY, .read, 4, .f3 .eorAbsY⟩,
    none,
    none,
    none,
    some ⟨.eor, .absoluteX, .read, 4, .f3 .eorAbsX⟩,
    some ⟨.lsr, .absoluteX, .rmw, 7, .f3 .lsrAbsX⟩,
    none]
  | 6 => [
    some ⟨.rts, .implied, .ret, 6, .f1 .rts⟩,
    some ⟨.adc, .indirectX, .read, 6, .f2 .adcIndX⟩,
    none,
    none,
    none,
    some ⟨.adc, .zeroPage, .read, 3, .f2 .adcZp⟩,
    some ⟨.ror, .zeroPage, .rmw, 5, .f2 .rorZp⟩,
    none,
    some ⟨.pla, .implied, .pull, 4, .f1 .pla⟩,
    some ⟨.adc, .immediate, .read, 2, .f2 .adcImm⟩,
    some ⟨.ror, .accumulator, .accumulator, 2, .f1 .rorAcc⟩,
    none,
    some ⟨.jmp, .absoluteIndirect, .jumpIndirect, 5, .f3 .jmpInd⟩,
    some ⟨.adc, .absolute, .read, 4, .f3 .adcAbs⟩,
    some ⟨.ror, .absolute, .rmw, 6, .f3 .rorAbs⟩,
    none]
  | 7 => [
    some ⟨.bvs, .relative, .branch, 2, .f2 .bvs⟩,
    some ⟨.adc, .indirectY, .read, 5, .f2 .adcIndY⟩,
    none,
    none,
    none,
    some ⟨.adc, .zeroPageX, .read, 4, .f2 .adcZpX⟩,
    some ⟨.ror, .zeroPageX, .rmw, 6, .f2 .rorZpX⟩,
    none,
    some ⟨.sei, .implied, .implied, 2, .f1 .sei⟩,
    some ⟨.adc, .absoluteY, .read, 4, .f3 .adcAbsY⟩,
    none,
    none,
    none,
    some ⟨.adc, .absoluteX, .read, 4, .f3 .adcAbsX⟩,
    some ⟨.ror, .absoluteX, .rmw, 7, .f3 .rorAbsX⟩,
    none]
  | 8 => [
    none,
    some ⟨.sta, .indirectX, .write, 6, .f2 .staIndX⟩,
    none,
    none,
    some ⟨.sty, .zeroPage, .write, 3, .f2 .styZp⟩,
    some ⟨.sta, .zeroPage, .write, 3, .f2 .staZp⟩,
    some ⟨.stx, .zeroPage, .write, 3, .f2 .stxZp⟩,
    none,
    some ⟨.dey, .implied, .implied, 2, .f1 .dey⟩,
    none,
    some ⟨.txa, .implied, .implied, 2, .f1 .txa⟩,
    none,
    some ⟨.sty, .absolute, .write, 4, .f3 .styAbs⟩,
    some ⟨.sta, .absolute, .write, 4, .f3 .staAbs⟩,
    some ⟨.stx, .absolute, .write, 4, .f3 .stxAbs⟩,
    none]
  | 9 => [
    some ⟨.bcc, .relative, .branch, 2, .f2 .bcc⟩,
    some ⟨.sta, .indirectY, .write, 6, .f2 .staIndY⟩,
    none,
    none,
    some ⟨.sty, .zeroPageX, .write, 4, .f2 .styZpX⟩,
    some ⟨.sta, .zeroPageX, .write, 4, .f2 .staZpX⟩,
    some ⟨.stx, .zeroPageY, .write, 4, .f2 .stxZpY⟩,
    none,
    some ⟨.tya, .implied, .implied, 2, .f1 .tya⟩,
    some ⟨.sta, .absoluteY, .write, 5, .f3 .staAbsY⟩,
    some ⟨.txs, .implied, .implied, 2, .f1 .txs⟩,
    none,
    none,
    some ⟨.sta, .absoluteX, .write, 5, .f3 .staAbsX⟩,
    none,
    none]
  | 10 => [
    some ⟨.ldy, .immediate, .read, 2, .f2 .ldyImm⟩,
    some ⟨.lda, .indirectX, .read, 6, .f2 .ldaIndX⟩,
    some ⟨.ldx, .immediate, .read, 2, .f2 .ldxImm⟩,
    none,
    some ⟨.ldy, .zeroPage, .read, 3, .f2 .ldyZp⟩,
    some ⟨.lda, .zeroPage, .read, 3, .f2 .ldaZp⟩,
    some ⟨.ldx, .zeroPage, .read, 3, .f2 .ldxZp⟩,
    none,
    some ⟨.tay, .implied, .implied, 2, .f1 .tay⟩,
    some ⟨.lda, .immediate, .read, 2, .f2 .ldaImm⟩,
    some ⟨.tax, .implied, .implied, 2, .f1 .tax⟩,
    none,
    some ⟨.ldy, .absolute, .read, 4, .f3 .ldyAbs⟩,
    some ⟨.lda, .absolute, .read, 4, .f3 .ldaAbs⟩,
    some ⟨.ldx, .absolute, .read, 4, .f3 .ldxAbs⟩,
    none]
  | 11 => [
    some ⟨.bcs, .relative, .branch, 2, .f2 .bcs⟩,
    some ⟨.lda, .indirectY, .read, 5, .f2 .ldaIndY⟩,
    none,
    none,
    some ⟨.ldy, .zeroPageX, .read, 4, .f2 .ldyZpX⟩,
    some ⟨.lda, .zeroPageX, .read, 4, .f2 .ldaZpX⟩,
    some ⟨.ldx, .zeroPageY, .read, 4, .f2 .ldxZpY⟩,
    none,
    some ⟨.clv, .implied, .implied, 2, .f1 .clv⟩,
    some ⟨.lda, .absoluteY, .read, 4, .f3 .ldaAbsY⟩,
    some ⟨.tsx, .implied, .implied, 2, .f1 .tsx⟩,
    none,
    some ⟨.ldy, .absoluteX, .read, 4, .f3 .ldyAbsX⟩,
    some ⟨.lda, .absoluteX, .read, 4, .f3 .ldaAbsX⟩,
    some ⟨.ldx, .absoluteY, .read, 4, .f3 .ldxAbsY⟩,
    none]
  | 12 => [
    some ⟨.cpy, .immediate, .read, 2, .f2 .cpyImm⟩,
    some ⟨.cmp, .indirectX, .read, 6, .f2 .cmpIndX⟩,
    none,
    none,
    some ⟨.cpy, .zeroPage, .read, 3, .f2 .cpyZp⟩,
    some ⟨.cmp, .zeroPage, .read, 3, .f2 .cmpZp⟩,
    some ⟨.dec, .zeroPage, .rmw, 5, .f2 .decZp⟩,
    none,
    some ⟨.iny, .implied, .implied, 2, .f1 .iny⟩,
    some ⟨.cmp, .immediate, .read, 2, .f2 .cmpImm⟩,
    some ⟨.dex, .implied, .implied, 2, .f1 .dex⟩,
    none,
    some ⟨.cpy, .absolute, .read, 4, .f3 .cpyAbs⟩,
    some ⟨.cmp, .absolute, .read, 4, .f3 .cmpAbs⟩,
    some ⟨.dec, .absolute, .rmw, 6, .f3 .decAbs⟩,
    none]
  | 13 => [
    some ⟨.bne, .relative, .branch, 2, .f2 .bne⟩,
    some ⟨.cmp, .indirectY, .read, 5, .f2 .cmpIndY⟩,
    none,
    none,
    none,
    some ⟨.cmp, .zeroPageX, .read, 4, .f2 .cmpZpX⟩,
    some ⟨.dec, .zeroPageX, .rmw, 6, .f2 .decZpX⟩,
    none,
    some ⟨.cld, .implied, .implied, 2, .f1 .cld⟩,
    some ⟨.cmp, .absoluteY, .read, 4, .f3 .cmpAbsY⟩,
    none,
    none,
    none,
    some ⟨.cmp, .absoluteX, .read, 4, .f3 .cmpAbsX⟩,
    some ⟨.dec, .absoluteX, .rmw, 7, .f3 .decAbsX⟩,
    none]
  | 14 => [
    some ⟨.cpx, .immediate, .read, 2, .f2 .cpxImm⟩,
    some ⟨.sbc, .indirectX, .read, 6, .f2 .sbcIndX⟩,
    none,
    none,
    some ⟨.cpx, .zeroPage, .read, 3, .f2 .cpxZp⟩,
    some ⟨.sbc, .zeroPage, .read, 3, .f2 .sbcZp⟩,
    some ⟨.inc, .zeroPage, .rmw, 5, .f2 .incZp⟩,
    none,
    some ⟨.inx, .implied, .implied, 2, .f1 .inx⟩,
    some ⟨.sbc, .immediate, .read, 2, .f2 .sbcImm⟩,
    some ⟨.nop, .implied, .implied, 2, .f1 .nop⟩,
    none,
    some ⟨.cpx, .absolute, .read, 4, .f3 .cpxAbs⟩,
    some ⟨.sbc, .absolute, .read, 4, .f3 .sbcAbs⟩,
    some ⟨.inc, .absolute, .rmw, 6, .f3 .incAbs⟩,
    none]
  | 15 => [
    some ⟨.beq, .relative, .branch, 2, .f2 .beq⟩,
    some ⟨.sbc, .indirectY, .read, 5, .f2 .sbcIndY⟩,
    none,
    none,
    none,
    some ⟨.sbc, .zeroPageX, .read, 4, .f2 .sbcZpX⟩,
    some ⟨.inc, .zeroPageX, .rmw, 6, .f2 .incZpX⟩,
    none,
    some ⟨.sed, .implied, .implied, 2, .f1 .sed⟩,
    some ⟨.sbc, .absoluteY, .read, 4, .f3 .sbcAbsY⟩,
    none,
    none,
    none,
    some ⟨.sbc, .absoluteX, .read, 4, .f3 .sbcAbsX⟩,
    some ⟨.inc, .absoluteX, .rmw, 7, .f3 .incAbsX⟩,
    none]
  | _ => []

/-- The dispatch table (R65): the descriptor of an opcode byte. -/
def dispatch (op : Byte) : Option Row :=
  ((opcodeRow (op.toNat / 16))[op.toNat % 16]?).join

/-- The byte that halts (R218). -/
def haltByte : Byte := 0x00#8

/-- Why bytes are no instruction. `noBytes`: there is no opcode byte. `unknownOpcode`: the opcode is outside
the map (R70). `truncated`: bytes of the instruction the opcode begins are missing. -/
inductive DecodeError where
  | noBytes
  | unknownOpcode (op : Byte)
  | truncated (op : Byte)
  deriving DecidableEq, Repr

/-- Operand assembly (R61, R63): the first operand byte is the low byte. -/
def Format.assemble (op : Byte) : Format → List Byte → Except DecodeError (Instr × List Byte)
  | .f1 i, rest => .ok (i, rest)
  | .f2 make, b1 :: rest => .ok (make b1, rest)
  | .f2 _, [] => .error (.truncated op)
  | .f3 make, b1 :: b2 :: rest => .ok (make (joinBytes b2 b1), rest)
  | .f3 _, _ => .error (.truncated op)

/-- The decoder (R60, R62): the instruction at the head of the bytes, and the bytes after it.
Byte $00 is decoded to `halt`, which the dispatch table does not hold (R218). -/
def decode : List Byte → Except DecodeError (Instr × List Byte)
  | [] => .error .noBytes
  | op :: rest =>
    if op = haltByte then .ok (.halt, rest)
    else
      match dispatch op with
      | none => .error (.unknownOpcode op)
      | some row => row.format.assemble op rest

/-- The encoder (R61, R64): the bytes of an instruction, the opcode first. -/
def encode : Instr → List Byte
  | .halt => [0x00#8]
  | .oraIndX z => [0x01#8, z]
  | .oraZp z => [0x05#8, z]
  | .aslZp z => [0x06#8, z]
  | .php => [0x08#8]
  | .oraImm imm => [0x09#8, imm]
  | .aslAcc => [0x0A#8]
  | .oraAbs a => [0x0D#8, loByte a, hiByte a]
  | .aslAbs a => [0x0E#8, loByte a, hiByte a]
  | .bpl offset => [0x10#8, offset]
  | .oraIndY z => [0x11#8, z]
  | .oraZpX z => [0x15#8, z]
  | .aslZpX z => [0x16#8, z]
  | .clc => [0x18#8]
  | .oraAbsY a => [0x19#8, loByte a, hiByte a]
  | .oraAbsX a => [0x1D#8, loByte a, hiByte a]
  | .aslAbsX a => [0x1E#8, loByte a, hiByte a]
  | .jsr a => [0x20#8, loByte a, hiByte a]
  | .andIndX z => [0x21#8, z]
  | .bitZp z => [0x24#8, z]
  | .andZp z => [0x25#8, z]
  | .rolZp z => [0x26#8, z]
  | .plp => [0x28#8]
  | .andImm imm => [0x29#8, imm]
  | .rolAcc => [0x2A#8]
  | .bitAbs a => [0x2C#8, loByte a, hiByte a]
  | .andAbs a => [0x2D#8, loByte a, hiByte a]
  | .rolAbs a => [0x2E#8, loByte a, hiByte a]
  | .bmi offset => [0x30#8, offset]
  | .andIndY z => [0x31#8, z]
  | .andZpX z => [0x35#8, z]
  | .rolZpX z => [0x36#8, z]
  | .sec => [0x38#8]
  | .andAbsY a => [0x39#8, loByte a, hiByte a]
  | .andAbsX a => [0x3D#8, loByte a, hiByte a]
  | .rolAbsX a => [0x3E#8, loByte a, hiByte a]
  | .rti => [0x40#8]
  | .eorIndX z => [0x41#8, z]
  | .eorZp z => [0x45#8, z]
  | .lsrZp z => [0x46#8, z]
  | .pha => [0x48#8]
  | .eorImm imm => [0x49#8, imm]
  | .lsrAcc => [0x4A#8]
  | .jmpAbs a => [0x4C#8, loByte a, hiByte a]
  | .eorAbs a => [0x4D#8, loByte a, hiByte a]
  | .lsrAbs a => [0x4E#8, loByte a, hiByte a]
  | .bvc offset => [0x50#8, offset]
  | .eorIndY z => [0x51#8, z]
  | .eorZpX z => [0x55#8, z]
  | .lsrZpX z => [0x56#8, z]
  | .cli => [0x58#8]
  | .eorAbsY a => [0x59#8, loByte a, hiByte a]
  | .eorAbsX a => [0x5D#8, loByte a, hiByte a]
  | .lsrAbsX a => [0x5E#8, loByte a, hiByte a]
  | .rts => [0x60#8]
  | .adcIndX z => [0x61#8, z]
  | .adcZp z => [0x65#8, z]
  | .rorZp z => [0x66#8, z]
  | .pla => [0x68#8]
  | .adcImm imm => [0x69#8, imm]
  | .rorAcc => [0x6A#8]
  | .jmpInd ptr => [0x6C#8, loByte ptr, hiByte ptr]
  | .adcAbs a => [0x6D#8, loByte a, hiByte a]
  | .rorAbs a => [0x6E#8, loByte a, hiByte a]
  | .bvs offset => [0x70#8, offset]
  | .adcIndY z => [0x71#8, z]
  | .adcZpX z => [0x75#8, z]
  | .rorZpX z => [0x76#8, z]
  | .sei => [0x78#8]
  | .adcAbsY a => [0x79#8, loByte a, hiByte a]
  | .adcAbsX a => [0x7D#8, loByte a, hiByte a]
  | .rorAbsX a => [0x7E#8, loByte a, hiByte a]
  | .staIndX z => [0x81#8, z]
  | .styZp z => [0x84#8, z]
  | .staZp z => [0x85#8, z]
  | .stxZp z => [0x86#8, z]
  | .dey => [0x88#8]
  | .txa => [0x8A#8]
  | .styAbs a => [0x8C#8, loByte a, hiByte a]
  | .staAbs a => [0x8D#8, loByte a, hiByte a]
  | .stxAbs a => [0x8E#8, loByte a, hiByte a]
  | .bcc offset => [0x90#8, offset]
  | .staIndY z => [0x91#8, z]
  | .styZpX z => [0x94#8, z]
  | .staZpX z => [0x95#8, z]
  | .stxZpY z => [0x96#8, z]
  | .tya => [0x98#8]
  | .staAbsY a => [0x99#8, loByte a, hiByte a]
  | .txs => [0x9A#8]
  | .staAbsX a => [0x9D#8, loByte a, hiByte a]
  | .ldyImm imm => [0xA0#8, imm]
  | .ldaIndX z => [0xA1#8, z]
  | .ldxImm imm => [0xA2#8, imm]
  | .ldyZp z => [0xA4#8, z]
  | .ldaZp z => [0xA5#8, z]
  | .ldxZp z => [0xA6#8, z]
  | .tay => [0xA8#8]
  | .ldaImm imm => [0xA9#8, imm]
  | .tax => [0xAA#8]
  | .ldyAbs a => [0xAC#8, loByte a, hiByte a]
  | .ldaAbs a => [0xAD#8, loByte a, hiByte a]
  | .ldxAbs a => [0xAE#8, loByte a, hiByte a]
  | .bcs offset => [0xB0#8, offset]
  | .ldaIndY z => [0xB1#8, z]
  | .ldyZpX z => [0xB4#8, z]
  | .ldaZpX z => [0xB5#8, z]
  | .ldxZpY z => [0xB6#8, z]
  | .clv => [0xB8#8]
  | .ldaAbsY a => [0xB9#8, loByte a, hiByte a]
  | .tsx => [0xBA#8]
  | .ldyAbsX a => [0xBC#8, loByte a, hiByte a]
  | .ldaAbsX a => [0xBD#8, loByte a, hiByte a]
  | .ldxAbsY a => [0xBE#8, loByte a, hiByte a]
  | .cpyImm imm => [0xC0#8, imm]
  | .cmpIndX z => [0xC1#8, z]
  | .cpyZp z => [0xC4#8, z]
  | .cmpZp z => [0xC5#8, z]
  | .decZp z => [0xC6#8, z]
  | .iny => [0xC8#8]
  | .cmpImm imm => [0xC9#8, imm]
  | .dex => [0xCA#8]
  | .cpyAbs a => [0xCC#8, loByte a, hiByte a]
  | .cmpAbs a => [0xCD#8, loByte a, hiByte a]
  | .decAbs a => [0xCE#8, loByte a, hiByte a]
  | .bne offset => [0xD0#8, offset]
  | .cmpIndY z => [0xD1#8, z]
  | .cmpZpX z => [0xD5#8, z]
  | .decZpX z => [0xD6#8, z]
  | .cld => [0xD8#8]
  | .cmpAbsY a => [0xD9#8, loByte a, hiByte a]
  | .cmpAbsX a => [0xDD#8, loByte a, hiByte a]
  | .decAbsX a => [0xDE#8, loByte a, hiByte a]
  | .cpxImm imm => [0xE0#8, imm]
  | .sbcIndX z => [0xE1#8, z]
  | .cpxZp z => [0xE4#8, z]
  | .sbcZp z => [0xE5#8, z]
  | .incZp z => [0xE6#8, z]
  | .inx => [0xE8#8]
  | .sbcImm imm => [0xE9#8, imm]
  | .nop => [0xEA#8]
  | .cpxAbs a => [0xEC#8, loByte a, hiByte a]
  | .sbcAbs a => [0xED#8, loByte a, hiByte a]
  | .incAbs a => [0xEE#8, loByte a, hiByte a]
  | .beq offset => [0xF0#8, offset]
  | .sbcIndY z => [0xF1#8, z]
  | .sbcZpX z => [0xF5#8, z]
  | .incZpX z => [0xF6#8, z]
  | .sed => [0xF8#8]
  | .sbcAbsY a => [0xF9#8, loByte a, hiByte a]
  | .sbcAbsX a => [0xFD#8, loByte a, hiByte a]
  | .incAbsX a => [0xFE#8, loByte a, hiByte a]

/-- The opcode of an instruction: the first byte of its encoding (R60). -/
def Instr.opcode (i : Instr) : Byte := (encode i).headD haltByte

/-- The descriptor of an instruction (R84); `halt` has none. -/
def Instr.row (i : Instr) : Option Row := dispatch i.opcode

/-- Byte `k` of an instruction word numbered as the opcode table numbers it: bit 0 is the least significant
bit of the opcode, later bytes count on from bit 8. -/
def wordByte (w k : Nat) : Byte := BitVec.ofNat 8 (w / 256 ^ k)

/-- The three bytes of the longest instruction (R61) whose lowest `nbits` bits are `w`'s and whose other
bits are 0, in address order. -/
def wordBytes (nbits w : Nat) : List Byte :=
  let v := w % 2 ^ nbits
  [wordByte v 0, wordByte v 1, wordByte v 2]

/-- The instruction the decoder reads from a word numbered as the opcode table numbers it. -/
def decodeTableWord (nbits w : Nat) : Option Instr :=
  match decode (wordBytes nbits w) with
  | .ok (i, _) => some i
  | .error _ => none

end Sys2Proof
end

