-- ==== Sys2Proof/Config.lean ====
section
/-! DEFINITION. What is fixed for one machine and what the spec leaves open: the parameters of R6, the
bus cycle as the collaborator sees it (R34), and the free values (constants with no body). -/

namespace Sys2Proof

/-- The six stored flags of the status register `P` (R25).
Bits 4 and 5 of its packed byte are not storage (R25, 90_conflicts.md C4): their readings are in
`Flags.statusByte` and `Flags.pushedStatusByte`. -/
structure Flags where
  c : Bool
  z : Bool
  i : Bool
  d : Bool
  v : Bool
  n : Bool
  deriving DecidableEq, Repr

/-- The direction of a bus access, and the `kind` of a bus fault (R43, R232). -/
inductive AccessKind where
  | read
  | write
  deriving DecidableEq, Repr

/-- One cycle on the byte bus, as the ports of R34 show it: a read that returned `din`, a write of `dout`
that was accepted, the two accesses with `bus_err` set, and a cycle with `bus_en = 0`, which is a
dummy cycle under `NoAccess` (R99). -/
inductive BusCycle where
  | read (addr : Addr) (din : Byte)
  | write (addr : Addr) (dout : Byte)
  | readFailed (addr : Addr)
  | writeFailed (addr : Addr) (dout : Byte)
  | idle
  deriving DecidableEq, Repr

namespace Config

/-- `INTERNAL_CYCLE_ACCESS` (R6, R99): whether a cycle with internal work only reads the bus. -/
inductive InternalCycleAccess where
  | nmosDummyRead
  | noAccess
  deriving DecidableEq, Repr

/-- The parameters of R6, as plain data. They stand in `State` and no step writes them, so a statement
about every state holds for every value of every parameter. `cycleCounterWidth = none` is the
unbounded counter (R33). The parameter `Bus` of R6 is the state's `bus`. -/
structure Params where
  startPc : Addr
  resetA : Byte
  resetX : Byte
  resetY : Byte
  resetSp : Byte
  resetFlags : Flags
  internalAccess : InternalCycleAccess
  cycleCounterWidth : Option Nat
  deriving DecidableEq, Repr

/-- The parameters `State.reset` is built from. DESIGN CHOICE, unsafe (log entries 1, 2, 7 and 8): R250 and
R251 leave the start address and the register values open, and these are the start state of the spec's
own test vectors (95_test_vectors.md section 0); the last two are the spec's defaults (R6). -/
def defaultParams : Params where
  startPc := 0x0600#16
  resetA := 0x00#8
  resetX := 0x00#8
  resetY := 0x00#8
  resetSp := 0xFD#8
  resetFlags := { c := false, z := false, i := false, d := false, v := false, n := false }
  internalAccess := .nmosDummyRead
  cycleCounterWidth := none

/-- What a byte of plain memory that nothing has written reads as. DESIGN CHOICE, unsafe (log entry 3). -/
def fillByte : Byte := 0x00#8

/-- FREE VALUE (log entry 6): the collaborator's answer to a read of an oracle window, `none` where it fails
the access (R40, R43). It may depend on every bus cycle so far, newest first. -/
opaque oracleRead : List BusCycle → Addr → Option Byte

/-- FREE VALUE (log entry 6): whether the collaborator accepts a write to an oracle window (R42, R43). -/
opaque oracleAccepts : List BusCycle → Addr → Byte → Bool

/-- FREE VALUE (log entry 13): a byte field of a fresh handler, which R31 leaves unspecified. The number
tells the fields apart, the history tells the handlers apart. -/
opaque freshByte : Nat → List BusCycle → Byte

/-- FREE VALUE (log entry 13): the carry field of a fresh handler (R31). -/
opaque freshCarry : List BusCycle → Bool

end Config

end Sys2Proof
end

