-- ==== Sys2Proof/Machine/Flags.lean ====
section
/-! DEFINITION. The status register's views (R26 to R28) and every flag computation: the pure functions of the
ALU (R120 to R139), over the integers and then truncated. -/

namespace Sys2Proof.Machine

open Sys2Proof

/-- A flag at a bit position of a byte. -/
def flagBit (f : Bool) (i : Nat) : Byte := if f then 1#8 <<< i else 0#8

/-- `StatusByte()` (R26): bit 5 reads 1 and bit 4 reads 0. -/
def statusByte (p : Flags) : Byte :=
  flagBit p.n 7 ||| flagBit p.v 6 ||| flagBit true 5 ||| flagBit false 4 |||
    flagBit p.d 3 ||| flagBit p.i 2 ||| flagBit p.z 1 ||| flagBit p.c 0

/-- `PushedStatusByte()` (R27): bits 4 and 5 high. -/
def pushedStatusByte (p : Flags) : Byte := statusByte p ||| 0x30#8

/-- `UpdateFromByte(b)` (R28): bits 4 and 5 are ignored. -/
def updateFromByte (b : Byte) : Flags where
  c := bitOf b 0
  z := bitOf b 1
  i := bitOf b 2
  d := bitOf b 3
  v := bitOf b 6
  n := bitOf b 7

/-- `setNZ(v)` (R8, R120): Z and N from the 8-bit value, the other flags unchanged. -/
def setNZ (v : Byte) (p : Flags) : Flags := { p with z := decide (v = 0#8), n := bitOf v 7 }

/-- The sum of ADC over the integers, "9-bit intermediate" (R121). -/
def adcSum (a m : Byte) (c : Bool) : Nat := a.toNat + m.toNat + flagNat c

/-- ADC (R121): the result and the flags. D is not read (R120). -/
def adc (a m : Byte) (p : Flags) : Byte × Flags :=
  let r := BitVec.ofNat 8 (adcSum a m p.c)
  (r, setNZ r { p with
    c := decide (adcSum a m p.c > 255)
    v := decide ((a ^^^ r) &&& (m ^^^ r) &&& 0x80#8 ≠ 0#8) })

/-- The difference of SBC over the integers, operands unsigned (R122). -/
def sbcDiff (a m : Byte) (c : Bool) : Int := (a.toNat : Int) - (m.toNat : Int) - (1 - (flagNat c : Int))

/-- SBC (R122): the result and the flags. D is not read (R120). -/
def sbc (a m : Byte) (p : Flags) : Byte × Flags :=
  let r := BitVec.ofInt 8 (sbcDiff a m p.c)
  (r, setNZ r { p with
    c := decide (sbcDiff a m p.c ≥ 0)
    v := decide ((a ^^^ r) &&& (a ^^^ m) &&& 0x80#8 ≠ 0#8) })

/-- ASL (R123). -/
def asl (v : Byte) (p : Flags) : Byte × Flags :=
  let r := v <<< 1
  (r, setNZ r { p with c := bitOf v 7 })

/-- LSR (R124). -/
def lsr (v : Byte) (p : Flags) : Byte × Flags :=
  let r := v >>> 1
  (r, setNZ r { p with c := bitOf v 0 })

/-- ROL (R125): the previous carry enters at bit 0. -/
def rol (v : Byte) (p : Flags) : Byte × Flags :=
  let r := v <<< 1 ||| flagBit p.c 0
  (r, setNZ r { p with c := bitOf v 7 })

/-- ROR (R126): the previous carry enters at bit 7. -/
def ror (v : Byte) (p : Flags) : Byte × Flags :=
  let r := v >>> 1 ||| flagBit p.c 7
  (r, setNZ r { p with c := bitOf v 0 })

/-- INC (R130): C is unaffected. -/
def inc (v : Byte) (p : Flags) : Byte × Flags := (v + 1#8, setNZ (v + 1#8) p)

/-- DEC (R131): C is unaffected. -/
def dec (v : Byte) (p : Flags) : Byte × Flags := (v - 1#8, setNZ (v - 1#8) p)

/-- The flags of CMP, CPX and CPY (R127 to R129): C is the unsigned comparison. -/
def compareFlags (reg m : Byte) (p : Flags) : Flags :=
  setNZ (reg - m) { p with c := decide (reg.toNat ≥ m.toNat) }

/-- The flags of BIT (R139): Z from the AND, V and N from the operand. -/
def bitTest (a m : Byte) (p : Flags) : Flags :=
  { p with z := decide (a &&& m = 0#8), v := bitOf m 6, n := bitOf m 7 }

end Sys2Proof.Machine
end

