-- ==== Sys2Proof/Machine/State.lean ====
section
/-! DEFINITION. The state of the machine as plain data (R20 to R35), the reasons a step can stop, and the state
after reset (R250, R251). -/

namespace Sys2Proof.Machine

open Sys2Proof

/-- Why the executor is in `Done` (R30, R231, R232): the only two exception causes (R230). -/
inductive DoneReason where
  | unknownOpcode (op : Byte)
  | busFault (kind : AccessKind) (addr : Addr)
  deriving DecidableEq, Repr

/-- The in-flight handler (R31): `t` is the number of the next cycle, from 2 on. -/
structure Handler where
  op : Byte
  t : Nat
  lo : Byte
  hi : Byte
  ptr : Byte
  data : Byte
  carry : Bool
  deriving DecidableEq, Repr

/-- The executor state `E` (R30). -/
inductive Executor where
  | fetchOpcode
  | processing (h : Handler)
  | done (reason : DoneReason)
  deriving DecidableEq, Repr

/-- What lies in a window of the address space. The first four are the plain memory of R57 with its predicate
`ok` on (kind, address): both accesses succeed, reads only, writes only, neither. `oracle` is a window the
collaborator answers as it likes (R40, R43, R53): its answers are free values (log entries 5 and 6). -/
inductive RegionKind where
  | ram
  | readOnly
  | writeOnly
  | unmapped
  | oracle
  deriving DecidableEq, Repr

/-- A window of the bus collaborator: the addresses from `base` on, `size` of them. -/
structure Region where
  base : Nat
  size : Nat
  kind : RegionKind
  deriving DecidableEq, Repr

/-- The plain memory's bytes: addresses strictly rising, no entry equal to `Config.fillByte`. -/
abbrev Memory := List Host.Cell

/-- The bus collaborator (R40): the bytes of its plain memory, its windows (the first that holds an address
decides, an address in none is `ram`), and the bus cycles it has seen, newest first (R34, R53). -/
structure Bus where
  mem : Memory
  regions : List Region
  log : List BusCycle
  deriving DecidableEq, Repr



/-- The machine: the registers of R20, the flags of R25, the executor of R30, the cycle counter of R33 (a natural
number), the reset input of R34 (asserted for the next step or cycle), the parameters of R6, which
nothing writes, and the bus collaborator, which is not the core's (R35). -/
structure State where
  a : Byte
  x : Byte
  y : Byte
  sp : Byte
  pc : Addr
  p : Flags
  e : Executor
  cycles : Nat
  rst : Bool
  params : Config.Params
  bus : Bus
  deriving DecidableEq, Repr

/-- Why a step answers no next state. A meaning never answers one: a fatal condition is the next state `Done`
(R233), and these are what a step from `Done`, which performs no cycle (R83), answers. -/
inductive Fault where
  /-- Raised by a step from `Done(UnknownOpcode($00))`: the normal end of a run (R246). Safe. -/
  | halted
  /-- Raised by a step from `Done(UnknownOpcode(op))`, `op` not $00: the run ended in a fault (R231, R246). Safe. -/
  | unknownOpcode (op : Byte)
  /-- Raised by a step from `Done(BusFault(kind, addr))`: the run ended in a fault (R232, R246). Safe. -/
  | busFault (kind : AccessKind) (addr : Addr)
  /-- Raised by a step from a `Processing` state that no run reaches: its opcode has no descriptor or its
  sequence has no cycle `t` (R31, R82). Safe (log entry 15). -/
  | noSuchCycle (op : Byte) (t : Nat)
  deriving DecidableEq, Repr

/-- Why an instruction has no meaning. The opcode table has a meaning for every row, so no arm of `exec` answers one. -/
inductive Refusal where
  /-- Raised by an arm of `exec` for an instruction that has no meaning yet. Safe. -/
  | notModelled (mnemonic : String)
  deriving DecidableEq, Repr

/-- What a step or a meaning answers. -/
abbrev Answer := Host.Outcome State Fault Refusal

/-- The machine after reset (R250, R251), with the default parameters, plain RAM everywhere and nothing in it.
The values are named by log entries 1 to 5. -/
def State.reset : State where
  a := Config.defaultParams.resetA
  x := Config.defaultParams.resetX
  y := Config.defaultParams.resetY
  sp := Config.defaultParams.resetSp
  pc := Config.defaultParams.startPc
  p := Config.defaultParams.resetFlags
  e := .fetchOpcode
  cycles := 0
  rst := false
  params := Config.defaultParams
  bus := { mem := [], regions := [], log := [] }

end Sys2Proof.Machine
end

