-- ==== Sys2Proof/Machine/Ops.lean ====
section
/-! DEFINITION. The named operations over memory, bus and registers: plain memory, the one-byte bus accesses
(R41 to R43), the dummy access (R99), the stack primitives (R47, R48), entering `Done` (R233) and the reset
that alone leaves it (R252). -/

namespace Sys2Proof.Machine

open Sys2Proof

/-! ## Plain memory (R57) -/

/-- The byte at an address. -/
def Memory.read : Memory → Nat → Byte
  | [], _ => Config.fillByte
  | (b, w) :: rest, a => if a = b then w else Memory.read rest a

/-- An entry in front, unless it is what an unlisted address reads as. -/
def Memory.put (a : Nat) (v : Byte) (rest : Memory) : Memory :=
  if v = Config.fillByte then rest else (a, v) :: rest

/-- The memory with one byte set, in its canonical form. -/
def Memory.write : Memory → Nat → Byte → Memory
  | [], a, v => Memory.put a v []
  | (b, w) :: rest, a, v =>
    if a < b then Memory.put a v ((b, w) :: rest)
    else if a = b then Memory.put a v rest
    else (b, w) :: Memory.write rest a v

/-- Canonical from an address on: addresses strictly rising and below 65,536 (R44), no entry the fill byte. -/
def Memory.wfFrom : Nat → Memory → Bool
  | _, [] => true
  | least, (a, v) :: rest =>
    decide (least ≤ a) && decide (a < 65536) && decide (v ≠ Config.fillByte) && Memory.wfFrom (a + 1) rest

/-- The canonical form of a memory. -/
def Memory.wf (m : Memory) : Bool := Memory.wfFrom 0 m

/-! ## The bus collaborator -/

/-- Whether a window holds an address. -/
def Region.holds (r : Region) (a : Nat) : Bool := decide (r.base ≤ a) && decide (a < r.base + r.size)

/-- What lies at an address: the first window that holds it decides, and an address in none is `ram`. -/
def kindIn : List Region → Nat → RegionKind
  | [], _ => .ram
  | r :: rest, a => if r.holds a then r.kind else kindIn rest a

/-- What lies at an address of the bus. -/
def Bus.kindAt (b : Bus) (a : Addr) : RegionKind := kindIn b.regions a.toNat

/-- The plain memory's byte at an address, with no bus access. -/
def Bus.peek (b : Bus) (a : Addr) : Byte := b.mem.read a.toNat

/-- Whether a read succeeds with the plain memory's byte: `ok(Read, a)` of R57. -/
def Bus.canRead (b : Bus) (a : Addr) : Bool :=
  match b.kindAt a with
  | .ram => true
  | .readOnly => true
  | .writeOnly => false
  | .unmapped => false
  | .oracle => false

/-- Whether a write succeeds on the plain memory's byte: `ok(Write, a)` of R57. -/
def Bus.canWrite (b : Bus) (a : Addr) : Bool :=
  match b.kindAt a with
  | .ram => true
  | .readOnly => false
  | .writeOnly => true
  | .unmapped => false
  | .oracle => false

/-- The collaborator's answer to a read (R41, R43): the byte, or a failure. -/
def Bus.readAnswer (b : Bus) (a : Addr) : Option Byte :=
  match b.kindAt a with
  | .ram => some (b.peek a)
  | .readOnly => some (b.peek a)
  | .writeOnly => none
  | .unmapped => none
  | .oracle => Config.oracleRead b.log a

/-- The collaborator's answer to a write (R42, R43): the plain memory after it, or a failure.
A write that an oracle window accepts changes no byte of plain memory (log entry 6). -/
def Bus.writeAnswer (b : Bus) (a : Addr) (v : Byte) : Option Memory :=
  match b.kindAt a with
  | .ram => some (b.mem.write a.toNat v)
  | .readOnly => none
  | .writeOnly => some (b.mem.write a.toNat v)
  | .unmapped => none
  | .oracle => if Config.oracleAccepts b.log a v then some b.mem else none

/-- The byte of plain memory at an address, as the statements read memory. -/
def State.byteAt (s : State) (a : Addr) : Byte := s.bus.peek a

/-! ## Updates of the state -/

def State.setA (s : State) (v : Byte) : State := { s with a := v }
def State.setX (s : State) (v : Byte) : State := { s with x := v }
def State.setY (s : State) (v : Byte) : State := { s with y := v }
def State.setSp (s : State) (v : Byte) : State := { s with sp := v }
def State.setPc (s : State) (v : Addr) : State := { s with pc := v }
def State.setP (s : State) (f : Flags) : State := { s with p := f }
def State.setE (s : State) (e : Executor) : State := { s with e := e }
def State.setMem (s : State) (m : Memory) : State := { s with bus := { s.bus with mem := m } }

/-- One cycle elapses: it is counted (R83) and the collaborator has seen its ports (R34). -/
def State.tick (s : State) (c : BusCycle) : State :=
  { s with cycles := s.cycles + 1, bus := { s.bus with log := c :: s.bus.log } }

/-- Taking an exception (R233, R237): the executor enters `Done(reason)`. Nothing is saved, pushed or loaded, and
every register keeps its value. -/
def takeFatal (r : DoneReason) (s : State) : State := s.setE (.done r)

/-- The numeric cause codes of R231 and R232. -/
def DoneReason.causeCode : DoneReason → Nat
  | .unknownOpcode _ => 1
  | .busFault _ _ => 2

/-- The return beside it: `Done` is left by a reset only (R238, R244), which from any executor state replaces the
whole core state by that of R250 and R251 and changes no byte of memory (R252). The parameters and
the collaborator stay; the reset input is released (log entry 12). -/
def State.assertReset (s : State) : State where
  a := s.params.resetA
  x := s.params.resetX
  y := s.params.resetY
  sp := s.params.resetSp
  pc := s.params.startPc
  p := s.params.resetFlags
  e := .fetchOpcode
  cycles := 0
  rst := false
  params := s.params
  bus := s.bus

/-- The end of an instruction (R82): the handler is discarded and `E` is `FetchOpcode`. -/
def State.complete (s : State) : State := s.setE .fetchOpcode

/-! ## Flow: cycles in sequence, ended by the first failing access (R112, R234) -/

/-- What a part of a sequence leaves: a value and the state, or the state in `Done`. -/
inductive Flow (α : Type) where
  | ok (value : α) (s : State)
  | stopped (s : State)

/-- One part of a sequence after another: nothing happens after a failing access (R112). -/
def Flow.bind {α β : Type} (f : Flow α) (k : α → State → Flow β) : Flow β :=
  match f with
  | .ok value s => k value s
  | .stopped s => .stopped s

/-- The answer of a whole sequence: the next state, at an instruction boundary (R85) or in `Done` (R233). -/
def Flow.answer (f : Flow Unit) : Answer :=
  match f with
  | .ok _ s => .next s.complete
  | .stopped s => .next s

/-! ## Bus accesses -/

/-- `MemRead(addr, 1)` (R41): one cycle. A failure performs `raise BusFault(Read, addr)` (R43, R232). -/
def busRead (a : Addr) (s : State) : Flow Byte :=
  match s.bus.readAnswer a with
  | some v => .ok v (s.tick (.read a v))
  | none => .stopped (takeFatal (.busFault .read a) (s.tick (.readFailed a)))

/-- `MemWrite(addr, 1, v)` (R42): one cycle. A failure performs `raise BusFault(Write, addr)` and changes no
byte (R43, R232). -/
def busWrite (a : Addr) (v : Byte) (s : State) : Flow Unit :=
  match s.bus.writeAnswer a v with
  | some m => .ok () ((s.tick (.write a v)).setMem m)
  | none => .stopped (takeFatal (.busFault .write a) (s.tick (.writeFailed a v)))

/-- `DummyRead(a)` (R99): a read whose value is discarded, or a cycle with no access, which cannot fail. -/
def dummyRead (a : Addr) (s : State) : Flow Unit :=
  match s.params.internalAccess with
  | .nmosDummyRead => (busRead a s).bind fun _ s => .ok () s
  | .noAccess => .ok () (s.tick .idle)

/-- `fetch` (R99): `v <- MemRead(PC, 1); PC <- PC + 1` (R24). -/
def fetchByte (s : State) : Flow Byte :=
  (busRead s.pc s).bind fun v s => .ok v (s.setPc (s.pc + 1#16))

/-! ## The stack -/

/-- The address of a stack access, `0x0100 | SP` (R46). -/
def stackAddr (sp : Byte) : Addr := 0x0100#16 ||| zext16 sp

/-- `Push(v)` (R47): the write, then the decrement. -/
def push (v : Byte) (s : State) : Flow Unit :=
  (busWrite (stackAddr s.sp) v s).bind fun _ s => .ok () (s.setSp (s.sp - 1#8))

/-- `Pull()` (R48): the read at the incremented pointer; a failing read leaves `SP` as it was (R112). -/
def pull (s : State) : Flow Byte :=
  (busRead (stackAddr (s.sp + 1#8)) s).bind fun v s => .ok v (s.setSp (s.sp + 1#8))

end Sys2Proof.Machine
end

