-- ==== Sys2Proof/Machine/Operands.lean ====
section
/-! DEFINITION. The address decoder (R87 to R97): the memory operands, their effective addresses, and the bus
cycles their modes spend before the operand is accessed (R102 to R107). -/

namespace Sys2Proof.Machine

open Sys2Proof

/-- A memory operand: its mode and its operand bytes (R63, R87). -/
inductive MemOperand where
  | zp (z : Byte)
  | zpX (z : Byte)
  | zpY (z : Byte)
  | abs (a : Addr)
  | absX (a : Addr)
  | absY (a : Addr)
  | indX (z : Byte)
  | indY (z : Byte)
  deriving DecidableEq, Repr

/-- Whether adding an index carries out of the low byte (R92, R94). -/
def indexCarry (lo idx : Byte) : Bool := decide (lo.toNat + idx.toNat > 255)

/-- The indexed address: the sum modulo 2^16 (R87, R92, R94). -/
def indexedAddr (base : Addr) (idx : Byte) : Addr := base + zext16 idx

/-- The unfixed address `U`: the low byte indexed, the high byte not yet corrected (R92, R94). -/
def unfixedAddr (base : Addr) (idx : Byte) : Addr := joinBytes (hiByte base) (loByte base + idx)

/-- The zero-page address the pointer's high byte is read at: it wraps in the zero page (R93, R94). -/
def pointerHigh (z : Byte) : Addr := zext16 (z + 1#8)

/-- Where JMP indirect reads the high byte: the low byte of the pointer wraps in its page (R96). -/
def indirectHigh (ptr : Addr) : Addr := joinBytes (hiByte ptr) (loByte ptr + 1#8)

/-- The target of a branch (R95), `next` being the address of the next instruction. -/
def branchTarget (next : Addr) (offset : Byte) : Addr := next + sext16 offset

/-- Whether a branch crosses a page (R95): the target's page is not the next instruction's. -/
def branchCrosses (next target : Addr) : Bool := decide (hiByte target ≠ hiByte next)

/-- A pointer in the zero page, as plain memory holds it (R93, R94). -/
def peekPointer (z : Byte) (s : State) : Addr := joinBytes (s.byteAt (pointerHigh z)) (s.byteAt (zext16 z))

/-- The effective address of an operand (R87), pointers taken from plain memory without a bus access. -/
def MemOperand.effectiveAddress : MemOperand → State → Addr
  | .zp z, _ => zext16 z
  | .zpX z, s => zext16 (z + s.x)
  | .zpY z, s => zext16 (z + s.y)
  | .abs a, _ => a
  | .absX a, s => indexedAddr a s.x
  | .absY a, s => indexedAddr a s.y
  | .indX z, s => peekPointer (z + s.x) s
  | .indY z, s => indexedAddr (peekPointer z s) s.y

/-- The two pointer reads of the indirect modes, low byte first (R93, R94, R50). -/
def readPointer (z : Byte) (s : State) : Flow Addr :=
  (busRead (zext16 z) s).bind fun lo s =>
  (busRead (pointerHigh z) s).bind fun hi s => .ok (joinBytes hi lo) s

/-- Indexing a 16-bit base (R105, R107). The read at the unfixed address happens when the index addition
carries, and `always` for stores and read-modify-write instructions (R258). -/
def indexBase (always : Bool) (base : Addr) (idx : Byte) (s : State) : Flow Addr :=
  if always || indexCarry (loByte base) idx then
    (busRead (unfixedAddr base idx) s).bind fun _ s => .ok (indexedAddr base idx) s
  else .ok (indexedAddr base idx) s

/-- The cycles of a mode between the operand fetch and the operand access, and the effective address they give
(R102 to R107). -/
def MemOperand.resolve (always : Bool) : MemOperand → State → Flow Addr
  | .zp z, s => .ok (zext16 z) s
  | .zpX z, s => (dummyRead (zext16 z) s).bind fun _ s => .ok (zext16 (z + s.x)) s
  | .zpY z, s => (dummyRead (zext16 z) s).bind fun _ s => .ok (zext16 (z + s.y)) s
  | .abs a, s => .ok a s
  | .absX a, s => indexBase always a s.x s
  | .absY a, s => indexBase always a s.y s
  | .indX z, s => (dummyRead (zext16 z) s).bind fun _ s => readPointer (z + s.x) s
  | .indY z, s => (readPointer z s).bind fun base s => indexBase always base s.y s

end Sys2Proof.Machine
end

