-- ==== Sys2Proof/Machine/Sequences.lean ====
section
/-! DEFINITION. The bus-cycle sequences (R98 to R110) after the operand fetch, one per operation class, over the
operation they apply. A meaning is one of these applied to its operand and its operation. -/

namespace Sys2Proof.Machine

open Sys2Proof

/-- Immediate, read class (R101): T2 is the operand fetch, so nothing is left but the operation. -/
def readImm (v : Byte) (op : Byte → State → State) (s : State) : Answer :=
  Flow.answer (.ok () (op v s))

/-- Read class (R102 to R107): the operand byte is read and the operation applied. -/
def readMem (o : MemOperand) (op : Byte → State → State) (s : State) : Answer :=
  ((o.resolve false s).bind fun ea s => (busRead ea s).bind fun v s => .ok () (op v s)).answer

/-- Write class (R102 to R107): the byte the operation gives is stored. -/
def writeMem (o : MemOperand) (value : State → Byte) (s : State) : Answer :=
  ((o.resolve true s).bind fun ea s => busWrite ea (value s) s).answer

/-- The cycles at the effective address of a read-modify-write (R102 to R105): the read, the dummy write of the
unchanged value with the flags written in its cycle, the write of the new value. -/
def modifyAt (ea : Addr) (op : Byte → Flags → Byte × Flags) (s : State) : Flow Unit :=
  (busRead ea s).bind fun v s =>
  (busWrite ea v s).bind fun _ s => busWrite ea (op v s.p).1 (s.setP (op v s.p).2)

/-- Read-modify-write class (R102 to R105). -/
def modifyMem (o : MemOperand) (op : Byte → Flags → Byte × Flags) (s : State) : Answer :=
  ((o.resolve true s).bind fun ea s => modifyAt ea op s).answer

/-- Implied and accumulator classes (R100). -/
def impliedOp (op : State → State) (s : State) : Answer :=
  ((dummyRead s.pc s).bind fun _ s => .ok () (op s)).answer

/-- A shift or rotate of the accumulator (R123 to R126). -/
def onAccumulator (op : Byte → Flags → Byte × Flags) (s : State) : State :=
  (s.setA (op s.a s.p).1).setP (op s.a s.p).2

/-- The cycles of a taken branch (R108): T3 loads `PC`, T4 happens on a page crossing only. -/
def takeBranch (offset : Byte) (s : State) : Flow Unit :=
  let target := branchTarget s.pc offset
  (dummyRead s.pc s).bind fun _ s1 =>
    if branchCrosses s.pc target then
      dummyRead (joinBytes (hiByte s.pc) (loByte target)) (s1.setPc target)
    else .ok () (s1.setPc target)

/-- Relative (R108): the condition is evaluated in the cycle of the operand fetch. -/
def branchIf (cond : Flags → Bool) (offset : Byte) (s : State) : Answer :=
  if cond s.p then (takeBranch offset s).answer else Flow.answer (.ok () s)

/-- Push sequence (R109). -/
def pushOp (value : State → Byte) (s : State) : Answer :=
  ((dummyRead s.pc s).bind fun _ s => push (value s) s).answer

/-- Pull sequence (R109). -/
def pullOp (apply : Byte → State → State) (s : State) : Answer :=
  ((dummyRead s.pc s).bind fun _ s =>
    (dummyRead (stackAddr s.sp) s).bind fun _ s => (pull s).bind fun v s => .ok () (apply v s)).answer

end Sys2Proof.Machine
end

