-- ==== Sys2Proof/Machine/Arithmetic.lean ====
section
/-! DEFINITION. ADC and SBC (R121, R122). -/

namespace Sys2Proof.Machine

open Sys2Proof

/-- The read operation of ADC (R121). -/
def opAdc (m : Byte) (s : State) : State := (s.setA (adc s.a m s.p).1).setP (adc s.a m s.p).2

/-- `ADC ($nn,X)`, $61 (R121, R106). -/
def execAdcIndX (z : Byte) (s : State) : Answer := readMem (.indX z) opAdc s

/-- `ADC $nn`, $65 (R121, R102). -/
def execAdcZp (z : Byte) (s : State) : Answer := readMem (.zp z) opAdc s

/-- `ADC #$nn`, $69 (R121, R101). -/
def execAdcImm (imm : Byte) (s : State) : Answer := readImm imm opAdc s

/-- `ADC $nnnn`, $6D (R121, R104). -/
def execAdcAbs (a : Addr) (s : State) : Answer := readMem (.abs a) opAdc s

/-- `ADC ($nn),Y`, $71 (R121, R107). -/
def execAdcIndY (z : Byte) (s : State) : Answer := readMem (.indY z) opAdc s

/-- `ADC $nn,X`, $75 (R121, R103). -/
def execAdcZpX (z : Byte) (s : State) : Answer := readMem (.zpX z) opAdc s

/-- `ADC $nnnn,Y`, $79 (R121, R105). -/
def execAdcAbsY (a : Addr) (s : State) : Answer := readMem (.absY a) opAdc s

/-- `ADC $nnnn,X`, $7D (R121, R105). -/
def execAdcAbsX (a : Addr) (s : State) : Answer := readMem (.absX a) opAdc s

/-- The read operation of SBC (R122). -/
def opSbc (m : Byte) (s : State) : State := (s.setA (sbc s.a m s.p).1).setP (sbc s.a m s.p).2

/-- `SBC ($nn,X)`, $E1 (R122, R106). -/
def execSbcIndX (z : Byte) (s : State) : Answer := readMem (.indX z) opSbc s

/-- `SBC $nn`, $E5 (R122, R102). -/
def execSbcZp (z : Byte) (s : State) : Answer := readMem (.zp z) opSbc s

/-- `SBC #$nn`, $E9 (R122, R101). -/
def execSbcImm (imm : Byte) (s : State) : Answer := readImm imm opSbc s

/-- `SBC $nnnn`, $ED (R122, R104). -/
def execSbcAbs (a : Addr) (s : State) : Answer := readMem (.abs a) opSbc s

/-- `SBC ($nn),Y`, $F1 (R122, R107). -/
def execSbcIndY (z : Byte) (s : State) : Answer := readMem (.indY z) opSbc s

/-- `SBC $nn,X`, $F5 (R122, R103). -/
def execSbcZpX (z : Byte) (s : State) : Answer := readMem (.zpX z) opSbc s

/-- `SBC $nnnn,Y`, $F9 (R122, R105). -/
def execSbcAbsY (a : Addr) (s : State) : Answer := readMem (.absY a) opSbc s

/-- `SBC $nnnn,X`, $FD (R122, R105). -/
def execSbcAbsX (a : Addr) (s : State) : Answer := readMem (.absX a) opSbc s

end Sys2Proof.Machine
end

