-- ==== Sys2Proof/Machine/Branch.lean ====
section
/-! DEFINITION. The conditional branches (R185 to R193). -/

namespace Sys2Proof.Machine

open Sys2Proof

/-- The condition of BCC (R186). -/
def condBcc (p : Flags) : Bool := !p.c

/-- `BCC $nnnn`, $90 (R186, R108). -/
def execBcc (offset : Byte) (s : State) : Answer := branchIf condBcc offset s

/-- The condition of BCS (R187). -/
def condBcs (p : Flags) : Bool := p.c

/-- `BCS $nnnn`, $B0 (R187, R108). -/
def execBcs (offset : Byte) (s : State) : Answer := branchIf condBcs offset s

/-- The condition of BEQ (R188). -/
def condBeq (p : Flags) : Bool := p.z

/-- `BEQ $nnnn`, $F0 (R188, R108). -/
def execBeq (offset : Byte) (s : State) : Answer := branchIf condBeq offset s

/-- The condition of BNE (R189). -/
def condBne (p : Flags) : Bool := !p.z

/-- `BNE $nnnn`, $D0 (R189, R108). -/
def execBne (offset : Byte) (s : State) : Answer := branchIf condBne offset s

/-- The condition of BMI (R190). -/
def condBmi (p : Flags) : Bool := p.n

/-- `BMI $nnnn`, $30 (R190, R108). -/
def execBmi (offset : Byte) (s : State) : Answer := branchIf condBmi offset s

/-- The condition of BPL (R191). -/
def condBpl (p : Flags) : Bool := !p.n

/-- `BPL $nnnn`, $10 (R191, R108). -/
def execBpl (offset : Byte) (s : State) : Answer := branchIf condBpl offset s

/-- The condition of BVC (R192). -/
def condBvc (p : Flags) : Bool := !p.v

/-- `BVC $nnnn`, $50 (R192, R108). -/
def execBvc (offset : Byte) (s : State) : Answer := branchIf condBvc offset s

/-- The condition of BVS (R193). -/
def condBvs (p : Flags) : Bool := p.v

/-- `BVS $nnnn`, $70 (R193, R108). -/
def execBvs (offset : Byte) (s : State) : Answer := branchIf condBvs offset s

end Sys2Proof.Machine
end

