-- ==== Sys2Proof/Machine/Compare.lean ====
section
/-! DEFINITION. The compares and BIT: they write flags only (R127 to R129, R139). -/

namespace Sys2Proof.Machine

open Sys2Proof

/-- The read operation of CMP (R127). -/
def opCmp (m : Byte) (s : State) : State := s.setP (compareFlags s.a m s.p)

/-- `CMP ($nn,X)`, $C1 (R127, R106). -/
def execCmpIndX (z : Byte) (s : State) : Answer := readMem (.indX z) opCmp s

/-- `CMP $nn`, $C5 (R127, R102). -/
def execCmpZp (z : Byte) (s : State) : Answer := readMem (.zp z) opCmp s

/-- `CMP #$nn`, $C9 (R127, R101). -/
def execCmpImm (imm : Byte) (s : State) : Answer := readImm imm opCmp s

/-- `CMP $nnnn`, $CD (R127, R104). -/
def execCmpAbs (a : Addr) (s : State) : Answer := readMem (.abs a) opCmp s

/-- `CMP ($nn),Y`, $D1 (R127, R107). -/
def execCmpIndY (z : Byte) (s : State) : Answer := readMem (.indY z) opCmp s

/-- `CMP $nn,X`, $D5 (R127, R103). -/
def execCmpZpX (z : Byte) (s : State) : Answer := readMem (.zpX z) opCmp s

/-- `CMP $nnnn,Y`, $D9 (R127, R105). -/
def execCmpAbsY (a : Addr) (s : State) : Answer := readMem (.absY a) opCmp s

/-- `CMP $nnnn,X`, $DD (R127, R105). -/
def execCmpAbsX (a : Addr) (s : State) : Answer := readMem (.absX a) opCmp s

/-- The read operation of CPX (R128). -/
def opCpx (m : Byte) (s : State) : State := s.setP (compareFlags s.x m s.p)

/-- `CPX #$nn`, $E0 (R128, R101). -/
def execCpxImm (imm : Byte) (s : State) : Answer := readImm imm opCpx s

/-- `CPX $nn`, $E4 (R128, R102). -/
def execCpxZp (z : Byte) (s : State) : Answer := readMem (.zp z) opCpx s

/-- `CPX $nnnn`, $EC (R128, R104). -/
def execCpxAbs (a : Addr) (s : State) : Answer := readMem (.abs a) opCpx s

/-- The read operation of CPY (R129). -/
def opCpy (m : Byte) (s : State) : State := s.setP (compareFlags s.y m s.p)

/-- `CPY #$nn`, $C0 (R129, R101). -/
def execCpyImm (imm : Byte) (s : State) : Answer := readImm imm opCpy s

/-- `CPY $nn`, $C4 (R129, R102). -/
def execCpyZp (z : Byte) (s : State) : Answer := readMem (.zp z) opCpy s

/-- `CPY $nnnn`, $CC (R129, R104). -/
def execCpyAbs (a : Addr) (s : State) : Answer := readMem (.abs a) opCpy s

/-- The read operation of BIT (R139). -/
def opBit (m : Byte) (s : State) : State := s.setP (bitTest s.a m s.p)

/-- `BIT $nn`, $24 (R139, R102). -/
def execBitZp (z : Byte) (s : State) : Answer := readMem (.zp z) opBit s

/-- `BIT $nnnn`, $2C (R139, R104). -/
def execBitAbs (a : Addr) (s : State) : Answer := readMem (.abs a) opBit s

end Sys2Proof.Machine
end

