-- ==== Sys2Proof/Machine/FlagMisc.lean ====
section
/-! DEFINITION. The flag instructions, NOP and the halt byte (R210 to R218). -/

namespace Sys2Proof.Machine

open Sys2Proof

/-- CLC on the flags (R210). -/
def opClc (s : State) : State := s.setP { s.p with c := false }

/-- `CLC`, $18 (R210, R100). -/
def execClc (s : State) : Answer := impliedOp opClc s

/-- SEC on the flags (R211). -/
def opSec (s : State) : State := s.setP { s.p with c := true }

/-- `SEC`, $38 (R211, R100). -/
def execSec (s : State) : Answer := impliedOp opSec s

/-- CLI on the flags (R212). -/
def opCli (s : State) : State := s.setP { s.p with i := false }

/-- `CLI`, $58 (R212, R100). -/
def execCli (s : State) : Answer := impliedOp opCli s

/-- SEI on the flags (R213). -/
def opSei (s : State) : State := s.setP { s.p with i := true }

/-- `SEI`, $78 (R213, R100). -/
def execSei (s : State) : Answer := impliedOp opSei s

/-- CLD on the flags (R214). -/
def opCld (s : State) : State := s.setP { s.p with d := false }

/-- `CLD`, $D8 (R214, R100). -/
def execCld (s : State) : Answer := impliedOp opCld s

/-- SED on the flags (R215). -/
def opSed (s : State) : State := s.setP { s.p with d := true }

/-- `SED`, $F8 (R215, R100). -/
def execSed (s : State) : Answer := impliedOp opSed s

/-- CLV on the flags (R216). -/
def opClv (s : State) : State := s.setP { s.p with v := false }

/-- `CLV`, $B8 (R216, R100). -/
def execClv (s : State) : Answer := impliedOp opClv s

/-- NOP (R217): nothing. -/
def opNop (s : State) : State := s

/-- `NOP`, $EA (R217, R100). -/
def execNop (s : State) : Answer := impliedOp opNop s

/-- Byte $00, halt (R218): its fetch is its only cycle, and the executor enters `Done(UnknownOpcode($00))`. -/
def execHalt (s : State) : Answer := .next (takeFatal (.unknownOpcode 0x00#8) s)

end Sys2Proof.Machine
end

