-- ==== Sys2Proof/Machine/IncDec.lean ====
section
/-! DEFINITION. Increment and decrement, of memory and of the index registers (R130 to R135). -/

namespace Sys2Proof.Machine

open Sys2Proof

/-- `INC $nn`, $E6 (R130, R102). -/
def execIncZp (z : Byte) (s : State) : Answer := modifyMem (.zp z) inc s

/-- `INC $nnnn`, $EE (R130, R104). -/
def execIncAbs (a : Addr) (s : State) : Answer := modifyMem (.abs a) inc s

/-- `INC $nn,X`, $F6 (R130, R103). -/
def execIncZpX (z : Byte) (s : State) : Answer := modifyMem (.zpX z) inc s

/-- `INC $nnnn,X`, $FE (R130, R105). -/
def execIncAbsX (a : Addr) (s : State) : Answer := modifyMem (.absX a) inc s

/-- `DEC $nn`, $C6 (R131, R102). -/
def execDecZp (z : Byte) (s : State) : Answer := modifyMem (.zp z) dec s

/-- `DEC $nnnn`, $CE (R131, R104). -/
def execDecAbs (a : Addr) (s : State) : Answer := modifyMem (.abs a) dec s

/-- `DEC $nn,X`, $D6 (R131, R103). -/
def execDecZpX (z : Byte) (s : State) : Answer := modifyMem (.zpX z) dec s

/-- `DEC $nnnn,X`, $DE (R131, R105). -/
def execDecAbsX (a : Addr) (s : State) : Answer := modifyMem (.absX a) dec s

/-- INX on the registers (R132). -/
def opInx (s : State) : State := (s.setX (s.x + 1#8)).setP (setNZ (s.x + 1#8) s.p)

/-- `INX`, $E8 (R132, R100). -/
def execInx (s : State) : Answer := impliedOp opInx s

/-- INY on the registers (R133). -/
def opIny (s : State) : State := (s.setY (s.y + 1#8)).setP (setNZ (s.y + 1#8) s.p)

/-- `INY`, $C8 (R133, R100). -/
def execIny (s : State) : Answer := impliedOp opIny s

/-- DEX on the registers (R134). -/
def opDex (s : State) : State := (s.setX (s.x - 1#8)).setP (setNZ (s.x - 1#8) s.p)

/-- `DEX`, $CA (R134, R100). -/
def execDex (s : State) : Answer := impliedOp opDex s

/-- DEY on the registers (R135). -/
def opDey (s : State) : State := (s.setY (s.y - 1#8)).setP (setNZ (s.y - 1#8) s.p)

/-- `DEY`, $88 (R135, R100). -/
def execDey (s : State) : Answer := impliedOp opDey s

end Sys2Proof.Machine
end

