-- ==== Sys2Proof/Machine/Jump.lean ====
section
/-! DEFINITION. JMP, JSR, RTS and RTI (R181 to R184), each with its own sequence of R110. -/

namespace Sys2Proof.Machine

open Sys2Proof

/-- `JMP $nnnn`, $4C (R181, R110): its last cycle is the fetch of the high byte. -/
def execJmpAbs (a : Addr) (s : State) : Answer := Flow.answer (.ok () (s.setPc a))

/-- `JMP ($nnnn)`, $6C (R181, R110): the high byte of the pointer never comes from the next page (R96). -/
def execJmpInd (ptr : Addr) (s : State) : Answer :=
  ((busRead ptr s).bind fun lo s =>
    (busRead (indirectHigh ptr) s).bind fun hi s => .ok () (s.setPc (joinBytes hi lo))).answer

/-- `JSR $nnnn`, $20 (R182, R110). `PC` points at the instruction's last byte, whose address is pushed. The
high target byte is the byte read there in T6, after both pushes, not the operand's (log entry 10). -/
def execJsr (a : Addr) (s : State) : Answer :=
  ((dummyRead (stackAddr s.sp) s).bind fun _ s =>
    (push (hiByte s.pc) s).bind fun _ s =>
    (push (loByte s.pc) s).bind fun _ s =>
    (busRead s.pc s).bind fun hi s => .ok () (s.setPc (joinBytes hi (loByte a)))).answer

/-- `RTS`, $60 (R183, R110): the pulled address is loaded in T5 and incremented in T6. -/
def execRts (s : State) : Answer :=
  ((dummyRead s.pc s).bind fun _ s =>
    (dummyRead (stackAddr s.sp) s).bind fun _ s =>
    (pull s).bind fun lo s =>
    (pull s).bind fun hi s =>
    (dummyRead (joinBytes hi lo) (s.setPc (joinBytes hi lo))).bind fun _ s =>
      .ok () (s.setPc (s.pc + 1#16))).answer

/-- `RTI`, $40 (R184, R110): the flags are written in T4, no 1 is added. -/
def execRti (s : State) : Answer :=
  ((dummyRead s.pc s).bind fun _ s =>
    (dummyRead (stackAddr s.sp) s).bind fun _ s =>
    (pull s).bind fun b s =>
    (pull (s.setP (updateFromByte b))).bind fun lo s =>
    (pull s).bind fun hi s => .ok () (s.setPc (joinBytes hi lo))).answer

end Sys2Proof.Machine
end

