-- ==== Sys2Proof/Machine/LoadStore.lean ====
section
/-! DEFINITION. Loads and stores (R160 to R166). -/

namespace Sys2Proof.Machine

open Sys2Proof

/-- The read operation of LDA (R161). -/
def opLda (m : Byte) (s : State) : State := (s.setA m).setP (setNZ m s.p)

/-- `LDA ($nn,X)`, $A1 (R161, R106). -/
def execLdaIndX (z : Byte) (s : State) : Answer := readMem (.indX z) opLda s

/-- `LDA $nn`, $A5 (R161, R102). -/
def execLdaZp (z : Byte) (s : State) : Answer := readMem (.zp z) opLda s

/-- `LDA #$nn`, $A9 (R161, R101). -/
def execLdaImm (imm : Byte) (s : State) : Answer := readImm imm opLda s

/-- `LDA $nnnn`, $AD (R161, R104). -/
def execLdaAbs (a : Addr) (s : State) : Answer := readMem (.abs a) opLda s

/-- `LDA ($nn),Y`, $B1 (R161, R107). -/
def execLdaIndY (z : Byte) (s : State) : Answer := readMem (.indY z) opLda s

/-- `LDA $nn,X`, $B5 (R161, R103). -/
def execLdaZpX (z : Byte) (s : State) : Answer := readMem (.zpX z) opLda s

/-- `LDA $nnnn,Y`, $B9 (R161, R105). -/
def execLdaAbsY (a : Addr) (s : State) : Answer := readMem (.absY a) opLda s

/-- `LDA $nnnn,X`, $BD (R161, R105). -/
def execLdaAbsX (a : Addr) (s : State) : Answer := readMem (.absX a) opLda s

/-- The read operation of LDX (R162). -/
def opLdx (m : Byte) (s : State) : State := (s.setX m).setP (setNZ m s.p)

/-- `LDX #$nn`, $A2 (R162, R101). -/
def execLdxImm (imm : Byte) (s : State) : Answer := readImm imm opLdx s

/-- `LDX $nn`, $A6 (R162, R102). -/
def execLdxZp (z : Byte) (s : State) : Answer := readMem (.zp z) opLdx s

/-- `LDX $nnnn`, $AE (R162, R104). -/
def execLdxAbs (a : Addr) (s : State) : Answer := readMem (.abs a) opLdx s

/-- `LDX $nn,Y`, $B6 (R162, R103). -/
def execLdxZpY (z : Byte) (s : State) : Answer := readMem (.zpY z) opLdx s

/-- `LDX $nnnn,Y`, $BE (R162, R105). -/
def execLdxAbsY (a : Addr) (s : State) : Answer := readMem (.absY a) opLdx s

/-- The read operation of LDY (R163). -/
def opLdy (m : Byte) (s : State) : State := (s.setY m).setP (setNZ m s.p)

/-- `LDY #$nn`, $A0 (R163, R101). -/
def execLdyImm (imm : Byte) (s : State) : Answer := readImm imm opLdy s

/-- `LDY $nn`, $A4 (R163, R102). -/
def execLdyZp (z : Byte) (s : State) : Answer := readMem (.zp z) opLdy s

/-- `LDY $nnnn`, $AC (R163, R104). -/
def execLdyAbs (a : Addr) (s : State) : Answer := readMem (.abs a) opLdy s

/-- `LDY $nn,X`, $B4 (R163, R103). -/
def execLdyZpX (z : Byte) (s : State) : Answer := readMem (.zpX z) opLdy s

/-- `LDY $nnnn,X`, $BC (R163, R105). -/
def execLdyAbsX (a : Addr) (s : State) : Answer := readMem (.absX a) opLdy s

/-- The byte STA stores (R164). -/
def valueSta (s : State) : Byte := s.a

/-- `STA ($nn,X)`, $81 (R164, R106). -/
def execStaIndX (z : Byte) (s : State) : Answer := writeMem (.indX z) valueSta s

/-- `STA $nn`, $85 (R164, R102). -/
def execStaZp (z : Byte) (s : State) : Answer := writeMem (.zp z) valueSta s

/-- `STA $nnnn`, $8D (R164, R104). -/
def execStaAbs (a : Addr) (s : State) : Answer := writeMem (.abs a) valueSta s

/-- `STA ($nn),Y`, $91 (R164, R107). -/
def execStaIndY (z : Byte) (s : State) : Answer := writeMem (.indY z) valueSta s

/-- `STA $nn,X`, $95 (R164, R103). -/
def execStaZpX (z : Byte) (s : State) : Answer := writeMem (.zpX z) valueSta s

/-- `STA $nnnn,Y`, $99 (R164, R105). -/
def execStaAbsY (a : Addr) (s : State) : Answer := writeMem (.absY a) valueSta s

/-- `STA $nnnn,X`, $9D (R164, R105). -/
def execStaAbsX (a : Addr) (s : State) : Answer := writeMem (.absX a) valueSta s

/-- The byte STX stores (R165). -/
def valueStx (s : State) : Byte := s.x

/-- `STX $nn`, $86 (R165, R102). -/
def execStxZp (z : Byte) (s : State) : Answer := writeMem (.zp z) valueStx s

/-- `STX $nnnn`, $8E (R165, R104). -/
def execStxAbs (a : Addr) (s : State) : Answer := writeMem (.abs a) valueStx s

/-- `STX $nn,Y`, $96 (R165, R103). -/
def execStxZpY (z : Byte) (s : State) : Answer := writeMem (.zpY z) valueStx s

/-- The byte STY stores (R166). -/
def valueSty (s : State) : Byte := s.y

/-- `STY $nn`, $84 (R166, R102). -/
def execStyZp (z : Byte) (s : State) : Answer := writeMem (.zp z) valueSty s

/-- `STY $nnnn`, $8C (R166, R104). -/
def execStyAbs (a : Addr) (s : State) : Answer := writeMem (.abs a) valueSty s

/-- `STY $nn,X`, $94 (R166, R103). -/
def execStyZpX (z : Byte) (s : State) : Answer := writeMem (.zpX z) valueSty s

end Sys2Proof.Machine
end

