-- ==== Sys2Proof/Machine/Logic.lean ====
section
/-! DEFINITION. The logical operations (R136 to R138). -/

namespace Sys2Proof.Machine

open Sys2Proof

/-- The read operation of AND (R136). -/
def opAnd (m : Byte) (s : State) : State := (s.setA (s.a &&& m)).setP (setNZ (s.a &&& m) s.p)

/-- `AND ($nn,X)`, $21 (R136, R106). -/
def execAndIndX (z : Byte) (s : State) : Answer := readMem (.indX z) opAnd s

/-- `AND $nn`, $25 (R136, R102). -/
def execAndZp (z : Byte) (s : State) : Answer := readMem (.zp z) opAnd s

/-- `AND #$nn`, $29 (R136, R101). -/
def execAndImm (imm : Byte) (s : State) : Answer := readImm imm opAnd s

/-- `AND $nnnn`, $2D (R136, R104). -/
def execAndAbs (a : Addr) (s : State) : Answer := readMem (.abs a) opAnd s

/-- `AND ($nn),Y`, $31 (R136, R107). -/
def execAndIndY (z : Byte) (s : State) : Answer := readMem (.indY z) opAnd s

/-- `AND $nn,X`, $35 (R136, R103). -/
def execAndZpX (z : Byte) (s : State) : Answer := readMem (.zpX z) opAnd s

/-- `AND $nnnn,Y`, $39 (R136, R105). -/
def execAndAbsY (a : Addr) (s : State) : Answer := readMem (.absY a) opAnd s

/-- `AND $nnnn,X`, $3D (R136, R105). -/
def execAndAbsX (a : Addr) (s : State) : Answer := readMem (.absX a) opAnd s

/-- The read operation of ORA (R137). -/
def opOra (m : Byte) (s : State) : State := (s.setA (s.a ||| m)).setP (setNZ (s.a ||| m) s.p)

/-- `ORA ($nn,X)`, $01 (R137, R106). -/
def execOraIndX (z : Byte) (s : State) : Answer := readMem (.indX z) opOra s

/-- `ORA $nn`, $05 (R137, R102). -/
def execOraZp (z : Byte) (s : State) : Answer := readMem (.zp z) opOra s

/-- `ORA #$nn`, $09 (R137, R101). -/
def execOraImm (imm : Byte) (s : State) : Answer := readImm imm opOra s

/-- `ORA $nnnn`, $0D (R137, R104). -/
def execOraAbs (a : Addr) (s : State) : Answer := readMem (.abs a) opOra s

/-- `ORA ($nn),Y`, $11 (R137, R107). -/
def execOraIndY (z : Byte) (s : State) : Answer := readMem (.indY z) opOra s

/-- `ORA $nn,X`, $15 (R137, R103). -/
def execOraZpX (z : Byte) (s : State) : Answer := readMem (.zpX z) opOra s

/-- `ORA $nnnn,Y`, $19 (R137, R105). -/
def execOraAbsY (a : Addr) (s : State) : Answer := readMem (.absY a) opOra s

/-- `ORA $nnnn,X`, $1D (R137, R105). -/
def execOraAbsX (a : Addr) (s : State) : Answer := readMem (.absX a) opOra s

/-- The read operation of EOR (R138). -/
def opEor (m : Byte) (s : State) : State := (s.setA (s.a ^^^ m)).setP (setNZ (s.a ^^^ m) s.p)

/-- `EOR ($nn,X)`, $41 (R138, R106). -/
def execEorIndX (z : Byte) (s : State) : Answer := readMem (.indX z) opEor s

/-- `EOR $nn`, $45 (R138, R102). -/
def execEorZp (z : Byte) (s : State) : Answer := readMem (.zp z) opEor s

/-- `EOR #$nn`, $49 (R138, R101). -/
def execEorImm (imm : Byte) (s : State) : Answer := readImm imm opEor s

/-- `EOR $nnnn`, $4D (R138, R104). -/
def execEorAbs (a : Addr) (s : State) : Answer := readMem (.abs a) opEor s

/-- `EOR ($nn),Y`, $51 (R138, R107). -/
def execEorIndY (z : Byte) (s : State) : Answer := readMem (.indY z) opEor s

/-- `EOR $nn,X`, $55 (R138, R103). -/
def execEorZpX (z : Byte) (s : State) : Answer := readMem (.zpX z) opEor s

/-- `EOR $nnnn,Y`, $59 (R138, R105). -/
def execEorAbsY (a : Addr) (s : State) : Answer := readMem (.absY a) opEor s

/-- `EOR $nnnn,X`, $5D (R138, R105). -/
def execEorAbsX (a : Addr) (s : State) : Answer := readMem (.absX a) opEor s

end Sys2Proof.Machine
end

