-- ==== Sys2Proof/Machine/Shift.lean ====
section
/-! DEFINITION. The shifts and rotates, of the accumulator and of memory (R123 to R126). -/

namespace Sys2Proof.Machine

open Sys2Proof

/-- `ASL $nn`, $06 (R123, R102). -/
def execAslZp (z : Byte) (s : State) : Answer := modifyMem (.zp z) asl s

/-- `ASL A`, $0A (R123, R100). -/
def execAslAcc (s : State) : Answer := impliedOp (onAccumulator asl) s

/-- `ASL $nnnn`, $0E (R123, R104). -/
def execAslAbs (a : Addr) (s : State) : Answer := modifyMem (.abs a) asl s

/-- `ASL $nn,X`, $16 (R123, R103). -/
def execAslZpX (z : Byte) (s : State) : Answer := modifyMem (.zpX z) asl s

/-- `ASL $nnnn,X`, $1E (R123, R105). -/
def execAslAbsX (a : Addr) (s : State) : Answer := modifyMem (.absX a) asl s

/-- `LSR $nn`, $46 (R124, R102). -/
def execLsrZp (z : Byte) (s : State) : Answer := modifyMem (.zp z) lsr s

/-- `LSR A`, $4A (R124, R100). -/
def execLsrAcc (s : State) : Answer := impliedOp (onAccumulator lsr) s

/-- `LSR $nnnn`, $4E (R124, R104). -/
def execLsrAbs (a : Addr) (s : State) : Answer := modifyMem (.abs a) lsr s

/-- `LSR $nn,X`, $56 (R124, R103). -/
def execLsrZpX (z : Byte) (s : State) : Answer := modifyMem (.zpX z) lsr s

/-- `LSR $nnnn,X`, $5E (R124, R105). -/
def execLsrAbsX (a : Addr) (s : State) : Answer := modifyMem (.absX a) lsr s

/-- `ROL $nn`, $26 (R125, R102). -/
def execRolZp (z : Byte) (s : State) : Answer := modifyMem (.zp z) rol s

/-- `ROL A`, $2A (R125, R100). -/
def execRolAcc (s : State) : Answer := impliedOp (onAccumulator rol) s

/-- `ROL $nnnn`, $2E (R125, R104). -/
def execRolAbs (a : Addr) (s : State) : Answer := modifyMem (.abs a) rol s

/-- `ROL $nn,X`, $36 (R125, R103). -/
def execRolZpX (z : Byte) (s : State) : Answer := modifyMem (.zpX z) rol s

/-- `ROL $nnnn,X`, $3E (R125, R105). -/
def execRolAbsX (a : Addr) (s : State) : Answer := modifyMem (.absX a) rol s

/-- `ROR $nn`, $66 (R126, R102). -/
def execRorZp (z : Byte) (s : State) : Answer := modifyMem (.zp z) ror s

/-- `ROR A`, $6A (R126, R100). -/
def execRorAcc (s : State) : Answer := impliedOp (onAccumulator ror) s

/-- `ROR $nnnn`, $6E (R126, R104). -/
def execRorAbs (a : Addr) (s : State) : Answer := modifyMem (.abs a) ror s

/-- `ROR $nn,X`, $76 (R126, R103). -/
def execRorZpX (z : Byte) (s : State) : Answer := modifyMem (.zpX z) ror s

/-- `ROR $nnnn,X`, $7E (R126, R105). -/
def execRorAbsX (a : Addr) (s : State) : Answer := modifyMem (.absX a) ror s

end Sys2Proof.Machine
end

