-- ==== Sys2Proof/Machine/Stack.lean ====
section
/-! DEFINITION. The stack instructions (R200 to R203). -/

namespace Sys2Proof.Machine

open Sys2Proof

/-- The byte PHA pushes (R200). -/
def valuePha (s : State) : Byte := s.a

/-- `PHA`, $48 (R200, R109). -/
def execPha (s : State) : Answer := pushOp valuePha s

/-- The byte PHP pushes (R201): bits 4 and 5 high. -/
def valuePhp (s : State) : Byte := pushedStatusByte s.p

/-- `PHP`, $08 (R201, R109). -/
def execPhp (s : State) : Answer := pushOp valuePhp s

/-- What PLA does with the pulled byte (R202). -/
def opPla (v : Byte) (s : State) : State := (s.setA v).setP (setNZ v s.p)

/-- `PLA`, $68 (R202, R109). -/
def execPla (s : State) : Answer := pullOp opPla s

/-- What PLP does with the pulled byte (R203). -/
def opPlp (v : Byte) (s : State) : State := s.setP (updateFromByte v)

/-- `PLP`, $28 (R203, R109). -/
def execPlp (s : State) : Answer := pullOp opPlp s

end Sys2Proof.Machine
end

