-- ==== Sys2Proof/Machine/Transfer.lean ====
section
/-! DEFINITION. The register transfers (R167 to R172). -/

namespace Sys2Proof.Machine

open Sys2Proof

/-- TAX on the registers (R167). -/
def opTax (s : State) : State := (s.setX s.a).setP (setNZ s.a s.p)

/-- `TAX`, $AA (R167, R100). -/
def execTax (s : State) : Answer := impliedOp opTax s

/-- TAY on the registers (R168). -/
def opTay (s : State) : State := (s.setY s.a).setP (setNZ s.a s.p)

/-- `TAY`, $A8 (R168, R100). -/
def execTay (s : State) : Answer := impliedOp opTay s

/-- TXA on the registers (R169). -/
def opTxa (s : State) : State := (s.setA s.x).setP (setNZ s.x s.p)

/-- `TXA`, $8A (R169, R100). -/
def execTxa (s : State) : Answer := impliedOp opTxa s

/-- TYA on the registers (R170). -/
def opTya (s : State) : State := (s.setA s.y).setP (setNZ s.y s.p)

/-- `TYA`, $98 (R170, R100). -/
def execTya (s : State) : Answer := impliedOp opTya s

/-- TSX on the registers (R171). -/
def opTsx (s : State) : State := (s.setX s.sp).setP (setNZ s.sp s.p)

/-- `TSX`, $BA (R171, R100). -/
def execTsx (s : State) : Answer := impliedOp opTsx s

/-- TXS on the registers (R172): it writes no flag. -/
def opTxs (s : State) : State := s.setSp s.x

/-- `TXS`, $9A (R172, R100). -/
def execTxs (s : State) : Answer := impliedOp opTxs s

end Sys2Proof.Machine
end

