-- ==== Sys2Proof/Machine/Cycle.lean ====
section
/-! DEFINITION. The cycle-stepped executor (R80 to R85): one call is one hardware clock cycle. The tables of R100 to
R110, one cycle at a time, over the handler of R31, with the operations the meanings use. -/

namespace Sys2Proof.Machine

open Sys2Proof

/-- The operation a descriptor refers to (R32, R84), by its class (R98). -/
inductive Operation where
  | read (op : Byte → State → State)
  | write (value : State → Byte)
  | rmw (op : Byte → Flags → Byte × Flags)
  | implied (op : State → State)
  | branch (cond : Flags → Bool)
  | push (value : State → Byte)
  | pull (op : Byte → State → State)
  | jump
  | call
  | ret
  | rti

/-- The operation of each mnemonic (R98). -/
def Mnemonic.operation : Mnemonic → Operation
  | .adc => .read opAdc
  | .and => .read opAnd
  | .asl => .rmw asl
  | .bcc => .branch condBcc
  | .bcs => .branch condBcs
  | .beq => .branch condBeq
  | .bit => .read opBit
  | .bmi => .branch condBmi
  | .bne => .branch condBne
  | .bpl => .branch condBpl
  | .bvc => .branch condBvc
  | .bvs => .branch condBvs
  | .clc => .implied opClc
  | .cld => .implied opCld
  | .cli => .implied opCli
  | .clv => .implied opClv
  | .cmp => .read opCmp
  | .cpx => .read opCpx
  | .cpy => .read opCpy
  | .dec => .rmw dec
  | .dex => .implied opDex
  | .dey => .implied opDey
  | .eor => .read opEor
  | .inc => .rmw inc
  | .inx => .implied opInx
  | .iny => .implied opIny
  | .jmp => .jump
  | .jsr => .call
  | .lda => .read opLda
  | .ldx => .read opLdx
  | .ldy => .read opLdy
  | .lsr => .rmw lsr
  | .nop => .implied opNop
  | .ora => .read opOra
  | .pha => .push valuePha
  | .php => .push valuePhp
  | .pla => .pull opPla
  | .plp => .pull opPlp
  | .rol => .rmw rol
  | .ror => .rmw ror
  | .rti => .rti
  | .rts => .ret
  | .sbc => .read opSbc
  | .sec => .implied opSec
  | .sed => .implied opSed
  | .sei => .implied opSei
  | .sta => .write valueSta
  | .stx => .write valueStx
  | .sty => .write valueSty
  | .tax => .implied opTax
  | .tay => .implied opTay
  | .tsx => .implied opTsx
  | .txa => .implied opTxa
  | .txs => .implied opTxs
  | .tya => .implied opTya

/-- How a cycle of a handler ends (R82): with `false` (the instruction goes on), with `true` (it is complete), with a
failed access (R112), or there is no such cycle. -/
inductive CycleEnd where
  | more (h : Handler) (s : State)
  | complete (s : State)
  | stopped (s : State)
  | none

/-- The rest of a cycle after its one bus access: nothing of it happens if the access fails (R112). -/
def Flow.cycleEnd {α : Type} (f : Flow α) (k : α → State → CycleEnd) : CycleEnd :=
  match f with
  | .ok value s => k value s
  | .stopped s => .stopped s

/-- What a cycle of a memory operand's sequence is: one of the cycles before the operand access, or the `k`-th cycle
at the effective address. -/
inductive OperandCycle where
  | before (c : CycleEnd)
  | operand (k : Nat) (ea : Addr)

/-- `U` and `EA` of R92 and R94 from the handler, whose `lo` is indexed already. -/
def Handler.unfixed (h : Handler) : Addr := joinBytes h.hi h.lo
def Handler.fixed (h : Handler) : Addr := joinBytes (h.hi + flagBit h.carry 0) h.lo

/-- The cycle that fetches the high byte and adds the index to the low byte (R105, T3). -/
def fetchHighAndIndex (idx : Byte) (h : Handler) (s : State) : CycleEnd :=
  (fetchByte s).cycleEnd fun v s =>
    .more { h with hi := v, lo := h.lo + idx, carry := indexCarry h.lo idx } s

/-- The cycle at the unfixed address (R105 T4, R107 T5): a read of its own, or, in the read class without a carry,
the operand access itself. -/
def unfixedCycle (always : Bool) (h : Handler) (s : State) : OperandCycle :=
  if always || h.carry then .before ((busRead h.unfixed s).cycleEnd fun _ s => .more h s)
  else .operand 0 h.unfixed

/-- The cycles of the addressing modes (R102 to R107), by mode and cycle number. DESIGN CHOICE (log entry 23): the
zero-page index additions leave `h.carry` alone, as the rows of R103 and R106 do. Unsafe. -/
def operandCycle (always : Bool) (m : Mode) (h : Handler) (s : State) : OperandCycle :=
  match m, h.t with
  | .zeroPage, 2 => .before ((fetchByte s).cycleEnd fun v s => .more { h with lo := v } s)
  | .zeroPage, t + 3 => .operand t (zext16 h.lo)
  | .zeroPageX, 2 => .before ((fetchByte s).cycleEnd fun v s => .more { h with lo := v } s)
  | .zeroPageX, 3 => .before ((dummyRead (zext16 h.lo) s).cycleEnd fun _ s => .more { h with ptr := h.lo + s.x } s)
  | .zeroPageX, t + 4 => .operand t (zext16 h.ptr)
  | .zeroPageY, 2 => .before ((fetchByte s).cycleEnd fun v s => .more { h with lo := v } s)
  | .zeroPageY, 3 => .before ((dummyRead (zext16 h.lo) s).cycleEnd fun _ s => .more { h with ptr := h.lo + s.y } s)
  | .zeroPageY, t + 4 => .operand t (zext16 h.ptr)
  | .absolute, 2 => .before ((fetchByte s).cycleEnd fun v s => .more { h with lo := v } s)
  | .absolute, 3 => .before ((fetchByte s).cycleEnd fun v s => .more { h with hi := v } s)
  | .absolute, t + 4 => .operand t (joinBytes h.hi h.lo)
  | .absoluteX, 2 => .before ((fetchByte s).cycleEnd fun v s => .more { h with lo := v } s)
  | .absoluteX, 3 => .before (fetchHighAndIndex s.x h s)
  | .absoluteX, 4 => unfixedCycle always h s
  | .absoluteX, t + 5 => .operand t h.fixed
  | .absoluteY, 2 => .before ((fetchByte s).cycleEnd fun v s => .more { h with lo := v } s)
  | .absoluteY, 3 => .before (fetchHighAndIndex s.y h s)
  | .absoluteY, 4 => unfixedCycle always h s
  | .absoluteY, t + 5 => .operand t h.fixed
  | .indirectX, 2 => .before ((fetchByte s).cycleEnd fun v s => .more { h with ptr := v } s)
  | .indirectX, 3 => .before ((dummyRead (zext16 h.ptr) s).cycleEnd fun _ s => .more { h with ptr := h.ptr + s.x } s)
  | .indirectX, 4 => .before ((busRead (zext16 h.ptr) s).cycleEnd fun v s => .more { h with lo := v } s)
  | .indirectX, 5 => .before ((busRead (pointerHigh h.ptr) s).cycleEnd fun v s => .more { h with hi := v } s)
  | .indirectX, t + 6 => .operand t (joinBytes h.hi h.lo)
  | .indirectY, 2 => .before ((fetchByte s).cycleEnd fun v s => .more { h with ptr := v } s)
  | .indirectY, 3 => .before ((busRead (zext16 h.ptr) s).cycleEnd fun v s => .more { h with lo := v } s)
  | .indirectY, 4 => .before ((busRead (pointerHigh h.ptr) s).cycleEnd fun v s =>
      .more { h with hi := v, lo := h.lo + s.y, carry := indexCarry h.lo s.y } s)
  | .indirectY, 5 => unfixedCycle always h s
  | .indirectY, t + 6 => .operand t h.fixed
  | _, _ => .before .none

/-- A cycle of a read instruction (R101 to R107). -/
def readCycle (op : Byte → State → State) (m : Mode) (h : Handler) (s : State) : CycleEnd :=
  match m, h.t with
  | .immediate, 2 => (fetchByte s).cycleEnd fun v s => .complete (op v s)
  | _, _ =>
    match operandCycle false m h s with
    | .before c => c
    | .operand 0 ea => (busRead ea s).cycleEnd fun v s => .complete (op v s)
    | .operand _ _ => .none

/-- A cycle of a store (R102 to R107). -/
def writeCycle (value : State → Byte) (m : Mode) (h : Handler) (s : State) : CycleEnd :=
  match operandCycle true m h s with
  | .before c => c
  | .operand 0 ea => (busWrite ea (value s) s).cycleEnd fun _ s => .complete s
  | .operand _ _ => .none

/-- The one cycle of an implied or accumulator instruction (R100). -/
def impliedCycle (op : State → State) (h : Handler) (s : State) : CycleEnd :=
  match h.t with
  | 2 => (dummyRead s.pc s).cycleEnd fun _ s => .complete (op s)
  | _ => .none

/-- A cycle of a read-modify-write instruction (R102 to R105); its accumulator form is R100. -/
def modifyCycle (op : Byte → Flags → Byte × Flags) (m : Mode) (h : Handler) (s : State) : CycleEnd :=
  match m with
  | .accumulator => impliedCycle (onAccumulator op) h s
  | _ =>
    match operandCycle true m h s with
    | .before c => c
    | .operand 0 ea => (busRead ea s).cycleEnd fun v s => .more { h with data := v } s
    | .operand 1 ea => (busWrite ea h.data s).cycleEnd fun _ s =>
        .more { h with data := (op h.data s.p).1 } (s.setP (op h.data s.p).2)
    | .operand 2 ea => (busWrite ea h.data s).cycleEnd fun _ s => .complete s
    | .operand _ _ => .none

/-- A cycle of a branch (R108). DESIGN CHOICE (log entry 23): R31 describes `h.carry` for a branch's addition too, but no
row of R108 writes it, and neither does this; the page crossing is read off the target (R95). Unsafe. -/
def branchCycle (cond : Flags → Bool) (h : Handler) (s : State) : CycleEnd :=
  match h.t with
  | 2 => (fetchByte s).cycleEnd fun v s => if cond s.p then .more { h with data := v } s else .complete s
  | 3 =>
    let target := branchTarget s.pc h.data
    (dummyRead s.pc s).cycleEnd fun _ s1 =>
      if branchCrosses s.pc target then
        .more { h with hi := hiByte s.pc, lo := loByte target } (s1.setPc target)
      else .complete (s1.setPc target)
  | 4 => (dummyRead (joinBytes h.hi h.lo) s).cycleEnd fun _ s => .complete s
  | _ => .none

/-- A cycle of a push (R109). -/
def pushCycle (value : State → Byte) (h : Handler) (s : State) : CycleEnd :=
  match h.t with
  | 2 => (dummyRead s.pc s).cycleEnd fun _ s => .more h s
  | 3 => (push (value s) s).cycleEnd fun _ s => .complete s
  | _ => .none

/-- A cycle of a pull (R109). -/
def pullCycle (op : Byte → State → State) (h : Handler) (s : State) : CycleEnd :=
  match h.t with
  | 2 => (dummyRead s.pc s).cycleEnd fun _ s => .more h s
  | 3 => (dummyRead (stackAddr s.sp) s).cycleEnd fun _ s => .more h s
  | 4 => (pull s).cycleEnd fun v s => .complete (op v s)
  | _ => .none

/-- A cycle of JMP (R110), absolute or indirect. -/
def jumpCycle (m : Mode) (h : Handler) (s : State) : CycleEnd :=
  match m, h.t with
  | .absolute, 2 => (fetchByte s).cycleEnd fun v s => .more { h with lo := v } s
  | .absolute, 3 => (busRead s.pc s).cycleEnd fun v s => .complete (s.setPc (joinBytes v h.lo))
  | .absoluteIndirect, 2 => (fetchByte s).cycleEnd fun v s => .more { h with lo := v } s
  | .absoluteIndirect, 3 => (fetchByte s).cycleEnd fun v s => .more { h with hi := v } s
  | .absoluteIndirect, 4 => (busRead (joinBytes h.hi h.lo) s).cycleEnd fun v s => .more { h with data := v } s
  | .absoluteIndirect, 5 => (busRead (joinBytes h.hi (h.lo + 1#8)) s).cycleEnd fun v s =>
      .complete (s.setPc (joinBytes v h.data))
  | _, _ => .none

/-- A cycle of JSR (R110). -/
def callCycle (h : Handler) (s : State) : CycleEnd :=
  match h.t with
  | 2 => (fetchByte s).cycleEnd fun v s => .more { h with lo := v } s
  | 3 => (dummyRead (stackAddr s.sp) s).cycleEnd fun _ s => .more h s
  | 4 => (push (hiByte s.pc) s).cycleEnd fun _ s => .more h s
  | 5 => (push (loByte s.pc) s).cycleEnd fun _ s => .more h s
  | 6 => (busRead s.pc s).cycleEnd fun v s => .complete (s.setPc (joinBytes v h.lo))
  | _ => .none

/-- A cycle of RTS (R110). -/
def retCycle (h : Handler) (s : State) : CycleEnd :=
  match h.t with
  | 2 => (dummyRead s.pc s).cycleEnd fun _ s => .more h s
  | 3 => (dummyRead (stackAddr s.sp) s).cycleEnd fun _ s => .more h s
  | 4 => (pull s).cycleEnd fun v s => .more { h with lo := v } s
  | 5 => (pull s).cycleEnd fun v s => .more { h with hi := v } (s.setPc (joinBytes v h.lo))
  | 6 => (dummyRead s.pc s).cycleEnd fun _ s => .complete (s.setPc (s.pc + 1#16))
  | _ => .none

/-- A cycle of RTI (R110). -/
def rtiCycle (h : Handler) (s : State) : CycleEnd :=
  match h.t with
  | 2 => (dummyRead s.pc s).cycleEnd fun _ s => .more h s
  | 3 => (dummyRead (stackAddr s.sp) s).cycleEnd fun _ s => .more h s
  | 4 => (pull s).cycleEnd fun v s => .more h (s.setP (updateFromByte v))
  | 5 => (pull s).cycleEnd fun v s => .more { h with lo := v } s
  | 6 => (pull s).cycleEnd fun v s => .complete (s.setPc (joinBytes v h.lo))
  | _ => .none

/-- Cycle `h.t` of a handler: its sequence is determined by mode and class (R84). -/
def handlerCycle (row : Row) (h : Handler) (s : State) : CycleEnd :=
  match Mnemonic.operation row.mnemonic with
  | .read op => readCycle op row.mode h s
  | .write value => writeCycle value row.mode h s
  | .rmw op => modifyCycle op row.mode h s
  | .implied op => impliedCycle op h s
  | .branch cond => branchCycle cond h s
  | .push value => pushCycle value h s
  | .pull op => pullCycle op h s
  | .jump => jumpCycle row.mode h s
  | .call => callCycle h s
  | .ret => retCycle h s
  | .rti => rtiCycle h s

/-- A fresh handler (R31, R81): `h.t = 2`, every field but `op` and `t` a free value (log entry 13). -/
def freshHandler (op : Byte) (history : List BusCycle) : Handler where
  op := op
  t := 2
  lo := Config.freshByte 0 history
  hi := Config.freshByte 1 history
  ptr := Config.freshByte 2 history
  data := Config.freshByte 3 history
  carry := Config.freshCarry history

/-- Cycle T1, the opcode fetch (R81). -/
def fetchCycle (s : State) : State :=
  match fetchByte s with
  | .stopped s => s
  | .ok op s =>
    match dispatch op with
    | none => takeFatal (.unknownOpcode op) s
    | some _ => s.setE (.processing (freshHandler op s.bus.log))

/-- What a step from `Done` answers: `Done` performs no cycle (R83), and a run that ended there ended in this
way (R246). -/
def DoneReason.fault : DoneReason → Fault
  | .unknownOpcode op => if op = 0x00#8 then .halted else .unknownOpcode op
  | .busFault kind addr => .busFault kind addr

/-- One call of the executor, one hardware clock cycle (R80 to R83). The reset input comes first (R252). -/
def cycle (s : State) : Answer :=
  if s.rst then .next s.assertReset
  else
    match s.e with
    | .fetchOpcode => .next (fetchCycle s)
    | .done reason => .fault reason.fault
    | .processing h =>
      match dispatch h.op with
      | none => .fault (.noSuchCycle h.op h.t)
      | some row =>
        match handlerCycle row h s with
        | .more h s => .next (s.setE (.processing { h with t := h.t + 1 }))
        | .complete s => .next s.complete
        | .stopped s => .next s
        | .none => .fault (.noSuchCycle h.op h.t)

/-- The rest of an in-flight instruction: cycles until the executor leaves `Processing`, at most `n`. -/
def finishInstr : Nat → State → Answer
  | 0, s => .next s
  | n + 1, s =>
    match s.e with
    | .processing _ =>
      match cycle s with
      | .next s => finishInstr n s
      | .fault r => .fault r
      | .refused r => .refused r
    | .fetchOpcode => .next s
    | .done _ => .next s

/-- The most cycles a handler performs after T1: a read-modify-write at absolute,X has six (R111). -/
def maxHandlerCycles : Nat := 6

/-- One instruction cycle by cycle, T1 and then its handler's cycles: what `step` does in one go. -/
def instructionByCycles (s : State) : Answer :=
  match cycle s with
  | .next s => finishInstr maxHandlerCycles s
  | .fault r => .fault r
  | .refused r => .refused r

end Sys2Proof.Machine
end

