-- ==== Sys2Proof/Machine/Fetch.lean ====
section
/-! DEFINITION. Fetching an instruction (R56, R60, R81): the opcode cycle T1 and the operand fetches that follow it,
and placing an instruction's bytes where they are fetched. -/

namespace Sys2Proof.Machine

open Sys2Proof

/-- The operand bytes an instruction fetches before any other cycle of its own (R101 to R110): all of them, but for
JSR, whose high target byte is fetched in T6, after the pushes (R110). -/
def Row.leadingFetches (row : Row) : Nat :=
  match row.cls with
  | .call => 1
  | _ => row.format.operandBytes

/-- As many operand fetches in a row, each a cycle (R99), and the bytes they return. -/
def fetchBytes : Nat → State → Flow (List Byte)
  | 0, s => .ok [] s
  | n + 1, s => (fetchByte s).bind fun b s => (fetchBytes n s).bind fun bs s => .ok (b :: bs) s

/-- The bytes of the instruction that are not fetched yet, as plain memory holds them at `PC`, with no bus access:
the third byte of JSR, which gives the decoded instruction its operand (log entry 10). -/
def laterBytes (n : Nat) (s : State) : List Byte := if n = 0 then [] else [s.byteAt s.pc]

/-- T1 and the operand fetches (R81, R101 to R110): the instruction to run, and the state it is run in.
An opcode outside the map ends in `Done(UnknownOpcode(op))` with `PC` already advanced (R70, R231). -/
def fetchInstr (s : State) : Flow Instr :=
  (fetchByte s).bind fun op s =>
    match dispatch op with
    | none =>
      match decode [op] with
      | .ok (i, _) => .ok i s
      | .error _ => .stopped (takeFatal (.unknownOpcode op) s)
    | some row =>
      (fetchBytes (Row.leadingFetches row) s).bind fun operands s =>
        match decode (op :: operands ++ laterBytes (row.format.operandBytes - Row.leadingFetches row) s) with
        | .ok (i, _) => .ok i s
        | .error _ => .stopped (takeFatal (.unknownOpcode op) s)

/-- A byte of program placed at an address: plain memory holds it, and a window that would keep the fetch from
reading plain memory there is overlaid with one byte of RAM. -/
def Bus.place (b : Bus) (a : Addr) (v : Byte) : Bus where
  mem := b.mem.write a.toNat v
  regions := if b.canRead a then b.regions else { base := a.toNat, size := 1, kind := .ram } :: b.regions
  log := b.log

/-- Bytes placed at consecutive addresses, modulo 2^16 (R60, R61). -/
def Bus.placeBytes : List Byte → Addr → Bus → Bus
  | [], _, b => b
  | v :: rest, a, b => Bus.placeBytes rest (a + 1#16) (b.place a v)

/-- The state with a program's bytes at `PC`, at an instruction boundary and with the reset input released, so that
the next step fetches them (log entry 14). -/
def State.placeProgram (s : State) (bytes : List Byte) : State :=
  { s with e := .fetchOpcode, rst := false, bus := Bus.placeBytes bytes s.pc s.bus }

end Sys2Proof.Machine
end

