-- ==== Sys2Proof/Machine/Step.lean ====
section
/-! DEFINITION. The step of the machine: one instruction (R85), or what the executor's state calls for. -/

namespace Sys2Proof.Machine

open Sys2Proof

/-- One instruction from a boundary (R81, R85): its fetches, then its meaning. -/
def runInstr (s : State) : Answer :=
  match fetchInstr s with
  | .ok i s => exec i s
  | .stopped s => .next s

/-- One step (log entry 9). An asserted reset replaces the core state (R252). From `FetchOpcode` an instruction
runs to the next boundary or to `Done`. From `Processing` the in-flight instruction is finished. `Done` has
no step (R83). -/
def step (s : State) : Host.Outcome State Fault Refusal :=
  if s.rst then .next s.assertReset
  else
    match s.e with
    | .fetchOpcode => runInstr s
    | .processing _ => finishInstr maxHandlerCycles s
    | .done reason => .fault reason.fault

/-- The state with an instruction's word, numbered as the opcode table numbers it, where the next step fetches
(log entry 14). -/
def State.withFetchWord (s : State) (nbits w : Nat) : State := s.placeProgram (wordBytes nbits w)

end Sys2Proof.Machine
end

