-- ==== Sys2Proof/Machine/BusTrace.lean ====
section
/-! DEFINITION. The bus cycles a sequence shows when no access fails, as lists, and the state after them (R53, R99 to
R110, R257): the words the statements are said in. -/

namespace Sys2Proof.Machine

open Sys2Proof

/-- The cycle a `DummyRead(a)` shows when it does not fail (R99). -/
def State.dummyCycle (s : State) (a : Addr) : BusCycle :=
  match s.params.internalAccess with
  | .nmosDummyRead => .read a (s.byteAt a)
  | .noAccess => .idle

/-- The read cycle at an address of plain memory. -/
def State.readCycleAt (s : State) (a : Addr) : BusCycle := .read a (s.byteAt a)

/-- Whether plain memory lets a cycle's access succeed (`ok` of R57). -/
def Bus.grants (b : Bus) : BusCycle → Bool
  | .read a _ => b.canRead a
  | .write a _ => b.canWrite a
  | .readFailed _ => false
  | .writeFailed _ _ => false
  | .idle => true

/-- Whether plain memory fails a cycle's access (`ok` of R57). -/
def Bus.denies (b : Bus) : BusCycle → Bool
  | .read a _ => b.kindAt a == .writeOnly || b.kindAt a == .unmapped
  | .write a _ => b.kindAt a == .readOnly || b.kindAt a == .unmapped
  | .readFailed _ => false
  | .writeFailed _ _ => false
  | .idle => false

/-- Plain memory lets every access of the cycles succeed. -/
def State.grantsAll (s : State) (cs : List BusCycle) : Prop := ∀ c ∈ cs, s.bus.grants c = true

/-- The state after cycles: they are counted, and the bus has seen them in their order. -/
def State.after (s : State) (cs : List BusCycle) : State :=
  { s with cycles := s.cycles + cs.length, bus := { s.bus with log := cs.reverse ++ s.bus.log } }

/-- A cycle as the bus sees it when its access fails. -/
def BusCycle.failed : BusCycle → BusCycle
  | .read a _ => .readFailed a
  | .write a v => .writeFailed a v
  | .readFailed a => .readFailed a
  | .writeFailed a v => .writeFailed a v
  | .idle => .idle

/-- The fault of a failed access (R232); an idle cycle has none. -/
def BusCycle.fault : BusCycle → Option DoneReason
  | .read a _ => some (.busFault .read a)
  | .write a _ => some (.busFault .write a)
  | .readFailed a => some (.busFault .read a)
  | .writeFailed a _ => some (.busFault .write a)
  | .idle => none

/-- The state when a read fails after cycles: they happened, the failing cycle is counted and seen, and the executor
is in `Done` (R112, R232, R233). -/
def State.failedRead (s : State) (cs : List BusCycle) (a : Addr) : State :=
  { s.after (cs ++ [.readFailed a]) with e := .done (.busFault .read a) }

/-- The state when a write fails after cycles (R112, R232, R233): as for a read. -/
def State.failedWrite (s : State) (cs : List BusCycle) (a : Addr) (v : Byte) : State :=
  { s.after (cs ++ [.writeFailed a v]) with e := .done (.busFault .write a) }

/-- Every address is plain RAM: `PlainRam(m, ok)` with `ok` always true (R57). -/
def State.plainRam (s : State) : Prop := ∀ a : Addr, s.bus.kindAt a = .ram

/-- Plain memory holds the bytes from an address on (R60). -/
def State.holds (s : State) : Addr → List Byte → Prop
  | _, [] => True
  | a, b :: rest => s.byteAt a = b ∧ s.holds (a + 1#16) rest

/-- The read at the unfixed address, where a form has one (R105, R107, R258). -/
def fixupCycles (always : Bool) (base : Addr) (idx : Byte) (s : State) : List BusCycle :=
  if always || indexCarry (loByte base) idx then [s.readCycleAt (unfixedAddr base idx)] else []

/-- The cycles of a mode between the operand fetch and the operand access (R102 to R107). -/
def MemOperand.addressCycles (always : Bool) : MemOperand → State → List BusCycle
  | .zp _, _ => []
  | .zpX z, s => [s.dummyCycle (zext16 z)]
  | .zpY z, s => [s.dummyCycle (zext16 z)]
  | .abs _, _ => []
  | .absX a, s => fixupCycles always a s.x s
  | .absY a, s => fixupCycles always a s.y s
  | .indX z, s =>
    [s.dummyCycle (zext16 z), s.readCycleAt (zext16 (z + s.x)), s.readCycleAt (pointerHigh (z + s.x))]
  | .indY z, s =>
    [s.readCycleAt (zext16 z), s.readCycleAt (pointerHigh z)] ++ fixupCycles always (peekPointer z s) s.y s

/-- The operand of a read instruction: an immediate byte or a memory operand (R87). -/
inductive ReadOperand where
  | imm (v : Byte)
  | mem (o : MemOperand)
  deriving DecidableEq, Repr

/-- The operand byte `M` of 41_alu.md. -/
def ReadOperand.value : ReadOperand → State → Byte
  | .imm v, _ => v
  | .mem o, s => s.byteAt (o.effectiveAddress s)

/-- The cycles of a read instruction after its operand fetches (R101 to R107). -/
def ReadOperand.cycles : ReadOperand → State → List BusCycle
  | .imm _, _ => []
  | .mem o, s => o.addressCycles false s ++ [s.readCycleAt (o.effectiveAddress s)]

/-- The cycles of a store after its operand fetches (R102 to R107). -/
def MemOperand.storeCycles (o : MemOperand) (v : Byte) (s : State) : List BusCycle :=
  o.addressCycles true s ++ [.write (o.effectiveAddress s) v]

/-- The cycles of a read-modify-write after its operand fetches (R102 to R105): read, dummy write, write. -/
def MemOperand.modifyCycles (o : MemOperand) (r : Byte) (s : State) : List BusCycle :=
  o.addressCycles true s ++
    [s.readCycleAt (o.effectiveAddress s), .write (o.effectiveAddress s) (s.byteAt (o.effectiveAddress s)),
      .write (o.effectiveAddress s) r]

/-- The bytes an instruction fetches before its other cycles: JSR fetches its high target byte in T6 (R110). -/
def Instr.fetchedBytes (i : Instr) : List Byte :=
  match i with
  | .jsr a => [0x20#8, loByte a]
  | i => encode i

/-- The fetch cycles of bytes at consecutive addresses (R60). -/
def fetchCyclesAt : Addr → List Byte → List BusCycle
  | _, [] => []
  | a, b :: rest => .read a b :: fetchCyclesAt (a + 1#16) rest

/-- The cycles of an instruction, T1 included (R9), from those after its fetches. -/
def totalCycles (i : Instr) (cs : List BusCycle) : Nat := (Instr.fetchedBytes i).length + cs.length

end Sys2Proof.Machine
end

