-- ==== Sys2Proof/Machine/Ports.lean ====
section
/-! DEFINITION. What the block shows outside (R34): its output ports as views of the state, and the trace hook, which
observes and changes nothing (R243). -/

namespace Sys2Proof.Machine

open Sys2Proof

/-- The bus ports of a cycle (R34): `busEn`, `addr`, `rw` (`true` = read), `dout`, `din`, `busErr`; a port the
cycle does not drive is `none`. -/
structure BusPorts where
  busEn : Bool
  addr : Option Addr
  rw : Option Bool
  dout : Option Byte
  din : Option Byte
  busErr : Bool
  deriving DecidableEq, Repr

/-- The ports of one bus cycle. -/
def BusCycle.ports : BusCycle → BusPorts
  | .read a v => { busEn := true, addr := some a, rw := some true, dout := none, din := some v, busErr := false }
  | .write a v => { busEn := true, addr := some a, rw := some false, dout := some v, din := none, busErr := false }
  | .readFailed a => { busEn := true, addr := some a, rw := some true, dout := none, din := none, busErr := true }
  | .writeFailed a v => { busEn := true, addr := some a, rw := some false, dout := some v, din := none, busErr := true }
  | .idle => { busEn := false, addr := none, rw := none, dout := none, din := none, busErr := false }

/-- The bus ports as the last cycle drove them. -/
def State.lastBusPorts (s : State) : Option BusPorts := s.bus.log.head?.map BusCycle.ports

/-- The ports `done` and `done_reason` (R34). -/
def State.doneReason (s : State) : Option DoneReason :=
  match s.e with
  | .done reason => some reason
  | .fetchOpcode => none
  | .processing _ => none

/-- The port `cycles` (R33, R34): a counter of width `w` wraps modulo 2^`w`. -/
def State.cyclesPort (s : State) : Nat :=
  match s.params.cycleCounterWidth with
  | none => s.cycles
  | some w => s.cycles % 2 ^ w

/-- What the trace hook shows of an instruction (R243): the mnemonic, the operand bytes, the resolved address, and
the registers before it is run, the status register as `StatusByte()` (R26). -/
structure TraceRecord where
  mnemonic : Option Mnemonic
  operandBytes : List Byte
  resolved : Option Addr
  a : Byte
  x : Byte
  y : Byte
  sp : Byte
  pc : Addr
  status : Byte
  deriving DecidableEq, Repr

/-- The memory operand of a mode and its operand bytes (R63, R87). -/
def Mode.memOperand : Mode → List Byte → Option MemOperand
  | .zeroPage, [z] => some (.zp z)
  | .zeroPageX, [z] => some (.zpX z)
  | .zeroPageY, [z] => some (.zpY z)
  | .absolute, [lo, hi] => some (.abs (joinBytes hi lo))
  | .absoluteX, [lo, hi] => some (.absX (joinBytes hi lo))
  | .absoluteY, [lo, hi] => some (.absY (joinBytes hi lo))
  | .indirectX, [z] => some (.indX z)
  | .indirectY, [z] => some (.indY z)
  | _, _ => none

/-- The address a mode resolves to (R87), with no bus access: `s` is the state before the instruction. -/
def Mode.resolvedAddress (m : Mode) (operands : List Byte) (s : State) : Option Addr :=
  match m, operands with
  | .relative, [offset] => some (branchTarget (s.pc + 2#16) offset)
  | .absoluteIndirect, [lo, hi] =>
    some (joinBytes (s.byteAt (indirectHigh (joinBytes hi lo))) (s.byteAt (joinBytes hi lo)))
  | _, _ => (Mode.memOperand m operands).map fun o => o.effectiveAddress s

/-- The trace record of an instruction about to run in a state (R243). Its line's format is the collaborator's. -/
def traceOf (i : Instr) (s : State) : TraceRecord where
  mnemonic := i.row.map Row.mnemonic
  operandBytes := (encode i).tail
  resolved := i.row.bind fun row => Mode.resolvedAddress row.mode (encode i).tail s
  a := s.a
  x := s.x
  y := s.y
  sp := s.sp
  pc := s.pc
  status := statusByte s.p

end Sys2Proof.Machine
end

