-- ==== Sys2Proof/Safety.lean ====
section
/-! DEFINITION. What counts as the end of a run and as a safe run (R246), and the invariant of the machine. -/

namespace Sys2Proof.Machine

open Sys2Proof

/-- A run ended normally: `E = Done(UnknownOpcode($00))` (R246). -/
def State.endedNormally (s : State) : Prop := s.e = .done (.unknownOpcode 0x00#8)

/-- A run ended in a fault: any other `Done` (R246). -/
def State.endedInFault (s : State) : Prop := ∃ r, s.e = .done r ∧ r ≠ .unknownOpcode 0x00#8

/-- The handler is one of a run: its opcode has a descriptor and `t` is a cycle of its sequence (R31, R82).
The last cycle is the base count, one more for a read with an index carry, two more for a branch (R111). -/
def Handler.legal (h : Handler) : Prop :=
  ∃ row, dispatch h.op = some row ∧ 2 ≤ h.t ∧ h.t ≤
    match row.cls, row.mode with
    | .read, .absoluteX => row.cycles + 1
    | .read, .absoluteY => row.cycles + 1
    | .read, .indirectY => row.cycles + 1
    | .branch, _ => row.cycles + 2
    | _, _ => row.cycles

/-- The executor state is one the rules allow: a legal handler (R31), a byte outside the dispatch table (R231), or a
failed access that is the last the bus has seen (R232, R233). -/
def State.executorLegal (s : State) : Prop :=
  match s.e with
  | .fetchOpcode => True
  | .processing h => h.legal
  | .done (.unknownOpcode op) => dispatch op = none
  | .done (.busFault .read a) => s.bus.log.head? = some (.readFailed a)
  | .done (.busFault .write a) => ∃ v, s.bus.log.head? = some (.writeFailed a v)

/-- The invariant: the memory is canonical, the executor state is legal, and the collaborator has seen every
counted cycle (R83, R34). -/
structure State.Inv (s : State) : Prop where
  memory : s.bus.mem.wf = true
  executor : s.executorLegal
  counted : s.cycles ≤ s.bus.log.length

end Sys2Proof.Machine
end

