-- ==== Sys2Proof/WellFormed.lean ====
section
/-! DEFINITION. Which byte strings are an instruction, and which instructions are well-formed. An operand's type admits
exactly the values its field holds (R61, R63), so what can be ill-formed is a byte string: an empty one, one
whose opcode is no opcode, or one of the wrong length. -/

namespace Sys2Proof

/-- Check 2: the byte is in the opcode map, $00 included (R64, R70). -/
def opcodeKnown (op : Byte) : Bool := op == haltByte || (dispatch op).isSome

/-- The operand bytes an opcode calls for, from its mode alone (R62). -/
def operandCount (op : Byte) : Nat :=
  match dispatch op with
  | none => 0
  | some row => row.mode.operandBytes

/-- Check 3: as many operand bytes as the mode takes (R62). -/
def lengthRight (op : Byte) (operands : List Byte) : Bool := operands.length == operandCount op

/-- A byte string is exactly one instruction of the map. -/
def bytesWellFormed : List Byte → Bool
  | [] => false  -- check 1: there is an opcode byte (R60)
  | op :: operands => opcodeKnown op && lengthRight op operands

/-- An instruction is well-formed when its encoding is. -/
def Instr.wellFormed (i : Instr) : Bool := bytesWellFormed (encode i)

end Sys2Proof
end

