-- ==== Sys2Proof/Certificates/Slice0/Obligations.lean ====
section
/-! DEFINITION. The statements for the provers, and the tables they are said over: the forms of each instruction as its
own rule lists them, and the counts of the summary R111. -/

namespace Sys2Proof.Machine

open Sys2Proof

/-- Z and N from a result, as every ALU rule writes them (`setNZ`, R8). -/
def Flags.withNZ (p : Flags) (r : Byte) : Flags := { p with z := decide (r = 0#8), n := r.getLsbD 7 }

/-! ## The forms of each instruction, with the opcode its rule gives -/

/-- The forms of LDA and their opcodes (R161). -/
def ldaForm : ReadOperand → Option (Byte × Instr)
  | .imm v => some (0xA9#8, .ldaImm v)
  | .mem (.zp z) => some (0xA5#8, .ldaZp z)
  | .mem (.zpX z) => some (0xB5#8, .ldaZpX z)
  | .mem (.zpY _) => none
  | .mem (.abs a) => some (0xAD#8, .ldaAbs a)
  | .mem (.absX a) => some (0xBD#8, .ldaAbsX a)
  | .mem (.absY a) => some (0xB9#8, .ldaAbsY a)
  | .mem (.indX z) => some (0xA1#8, .ldaIndX z)
  | .mem (.indY z) => some (0xB1#8, .ldaIndY z)

/-- The forms of LDX and their opcodes (R162). -/
def ldxForm : ReadOperand → Option (Byte × Instr)
  | .imm v => some (0xA2#8, .ldxImm v)
  | .mem (.zp z) => some (0xA6#8, .ldxZp z)
  | .mem (.zpX _) => none
  | .mem (.zpY z) => some (0xB6#8, .ldxZpY z)
  | .mem (.abs a) => some (0xAE#8, .ldxAbs a)
  | .mem (.absX _) => none
  | .mem (.absY a) => some (0xBE#8, .ldxAbsY a)
  | .mem (.indX _) => none
  | .mem (.indY _) => none

/-- The forms of LDY and their opcodes (R163). -/
def ldyForm : ReadOperand → Option (Byte × Instr)
  | .imm v => some (0xA0#8, .ldyImm v)
  | .mem (.zp z) => some (0xA4#8, .ldyZp z)
  | .mem (.zpX z) => some (0xB4#8, .ldyZpX z)
  | .mem (.zpY _) => none
  | .mem (.abs a) => some (0xAC#8, .ldyAbs a)
  | .mem (.absX a) => some (0xBC#8, .ldyAbsX a)
  | .mem (.absY _) => none
  | .mem (.indX _) => none
  | .mem (.indY _) => none

/-- The forms of ADC and their opcodes (R121). -/
def adcForm : ReadOperand → Option (Byte × Instr)
  | .imm v => some (0x69#8, .adcImm v)
  | .mem (.zp z) => some (0x65#8, .adcZp z)
  | .mem (.zpX z) => some (0x75#8, .adcZpX z)
  | .mem (.zpY _) => none
  | .mem (.abs a) => some (0x6D#8, .adcAbs a)
  | .mem (.absX a) => some (0x7D#8, .adcAbsX a)
  | .mem (.absY a) => some (0x79#8, .adcAbsY a)
  | .mem (.indX z) => some (0x61#8, .adcIndX z)
  | .mem (.indY z) => some (0x71#8, .adcIndY z)

/-- The forms of SBC and their opcodes (R122). -/
def sbcForm : ReadOperand → Option (Byte × Instr)
  | .imm v => some (0xE9#8, .sbcImm v)
  | .mem (.zp z) => some (0xE5#8, .sbcZp z)
  | .mem (.zpX z) => some (0xF5#8, .sbcZpX z)
  | .mem (.zpY _) => none
  | .mem (.abs a) => some (0xED#8, .sbcAbs a)
  | .mem (.absX a) => some (0xFD#8, .sbcAbsX a)
  | .mem (.absY a) => some (0xF9#8, .sbcAbsY a)
  | .mem (.indX z) => some (0xE1#8, .sbcIndX z)
  | .mem (.indY z) => some (0xF1#8, .sbcIndY z)

/-- The forms of AND and their opcodes (R136). -/
def andForm : ReadOperand → Option (Byte × Instr)
  | .imm v => some (0x29#8, .andImm v)
  | .mem (.zp z) => some (0x25#8, .andZp z)
  | .mem (.zpX z) => some (0x35#8, .andZpX z)
  | .mem (.zpY _) => none
  | .mem (.abs a) => some (0x2D#8, .andAbs a)
  | .mem (.absX a) => some (0x3D#8, .andAbsX a)
  | .mem (.absY a) => some (0x39#8, .andAbsY a)
  | .mem (.indX z) => some (0x21#8, .andIndX z)
  | .mem (.indY z) => some (0x31#8, .andIndY z)

/-- The forms of ORA and their opcodes (R137). -/
def oraForm : ReadOperand → Option (Byte × Instr)
  | .imm v => some (0x09#8, .oraImm v)
  | .mem (.zp z) => some (0x05#8, .oraZp z)
  | .mem (.zpX z) => some (0x15#8, .oraZpX z)
  | .mem (.zpY _) => none
  | .mem (.abs a) => some (0x0D#8, .oraAbs a)
  | .mem (.absX a) => some (0x1D#8, .oraAbsX a)
  | .mem (.absY a) => some (0x19#8, .oraAbsY a)
  | .mem (.indX z) => some (0x01#8, .oraIndX z)
  | .mem (.indY z) => some (0x11#8, .oraIndY z)

/-- The forms of EOR and their opcodes (R138). -/
def eorForm : ReadOperand → Option (Byte × Instr)
  | .imm v => some (0x49#8, .eorImm v)
  | .mem (.zp z) => some (0x45#8, .eorZp z)
  | .mem (.zpX z) => some (0x55#8, .eorZpX z)
  | .mem (.zpY _) => none
  | .mem (.abs a) => some (0x4D#8, .eorAbs a)
  | .mem (.absX a) => some (0x5D#8, .eorAbsX a)
  | .mem (.absY a) => some (0x59#8, .eorAbsY a)
  | .mem (.indX z) => some (0x41#8, .eorIndX z)
  | .mem (.indY z) => some (0x51#8, .eorIndY z)

/-- The forms of BIT and their opcodes (R139). -/
def bitForm : ReadOperand → Option (Byte × Instr)
  | .imm _ => none
  | .mem (.zp z) => some (0x24#8, .bitZp z)
  | .mem (.zpX _) => none
  | .mem (.zpY _) => none
  | .mem (.abs a) => some (0x2C#8, .bitAbs a)
  | .mem (.absX _) => none
  | .mem (.absY _) => none
  | .mem (.indX _) => none
  | .mem (.indY _) => none

/-- The forms of CMP and their opcodes (R127). -/
def cmpForm : ReadOperand → Option (Byte × Instr)
  | .imm v => some (0xC9#8, .cmpImm v)
  | .mem (.zp z) => some (0xC5#8, .cmpZp z)
  | .mem (.zpX z) => some (0xD5#8, .cmpZpX z)
  | .mem (.zpY _) => none
  | .mem (.abs a) => some (0xCD#8, .cmpAbs a)
  | .mem (.absX a) => some (0xDD#8, .cmpAbsX a)
  | .mem (.absY a) => some (0xD9#8, .cmpAbsY a)
  | .mem (.indX z) => some (0xC1#8, .cmpIndX z)
  | .mem (.indY z) => some (0xD1#8, .cmpIndY z)

/-- The forms of CPX and their opcodes (R128). -/
def cpxForm : ReadOperand → Option (Byte × Instr)
  | .imm v => some (0xE0#8, .cpxImm v)
  | .mem (.zp z) => some (0xE4#8, .cpxZp z)
  | .mem (.zpX _) => none
  | .mem (.zpY _) => none
  | .mem (.abs a) => some (0xEC#8, .cpxAbs a)
  | .mem (.absX _) => none
  | .mem (.absY _) => none
  | .mem (.indX _) => none
  | .mem (.indY _) => none

/-- The forms of CPY and their opcodes (R129). -/
def cpyForm : ReadOperand → Option (Byte × Instr)
  | .imm v => some (0xC0#8, .cpyImm v)
  | .mem (.zp z) => some (0xC4#8, .cpyZp z)
  | .mem (.zpX _) => none
  | .mem (.zpY _) => none
  | .mem (.abs a) => some (0xCC#8, .cpyAbs a)
  | .mem (.absX _) => none
  | .mem (.absY _) => none
  | .mem (.indX _) => none
  | .mem (.indY _) => none

/-- The forms of STA and their opcodes (R164). -/
def staForm : MemOperand → Option (Byte × Instr)
  | .zp z => some (0x85#8, .staZp z)
  | .zpX z => some (0x95#8, .staZpX z)
  | .zpY _ => none
  | .abs a => some (0x8D#8, .staAbs a)
  | .absX a => some (0x9D#8, .staAbsX a)
  | .absY a => some (0x99#8, .staAbsY a)
  | .indX z => some (0x81#8, .staIndX z)
  | .indY z => some (0x91#8, .staIndY z)

/-- The forms of STX and their opcodes (R165). -/
def stxForm : MemOperand → Option (Byte × Instr)
  | .zp z => some (0x86#8, .stxZp z)
  | .zpX _ => none
  | .zpY z => some (0x96#8, .stxZpY z)
  | .abs a => some (0x8E#8, .stxAbs a)
  | .absX _ => none
  | .absY _ => none
  | .indX _ => none
  | .indY _ => none

/-- The forms of STY and their opcodes (R166). -/
def styForm : MemOperand → Option (Byte × Instr)
  | .zp z => some (0x84#8, .styZp z)
  | .zpX z => some (0x94#8, .styZpX z)
  | .zpY _ => none
  | .abs a => some (0x8C#8, .styAbs a)
  | .absX _ => none
  | .absY _ => none
  | .indX _ => none
  | .indY _ => none

/-- The forms of ASL and their opcodes (R123). -/
def aslForm : MemOperand → Option (Byte × Instr)
  | .zp z => some (0x06#8, .aslZp z)
  | .zpX z => some (0x16#8, .aslZpX z)
  | .zpY _ => none
  | .abs a => some (0x0E#8, .aslAbs a)
  | .absX a => some (0x1E#8, .aslAbsX a)
  | .absY _ => none
  | .indX _ => none
  | .indY _ => none

/-- The forms of LSR and their opcodes (R124). -/
def lsrForm : MemOperand → Option (Byte × Instr)
  | .zp z => some (0x46#8, .lsrZp z)
  | .zpX z => some (0x56#8, .lsrZpX z)
  | .zpY _ => none
  | .abs a => some (0x4E#8, .lsrAbs a)
  | .absX a => some (0x5E#8, .lsrAbsX a)
  | .absY _ => none
  | .indX _ => none
  | .indY _ => none

/-- The forms of ROL and their opcodes (R125). -/
def rolForm : MemOperand → Option (Byte × Instr)
  | .zp z => some (0x26#8, .rolZp z)
  | .zpX z => some (0x36#8, .rolZpX z)
  | .zpY _ => none
  | .abs a => some (0x2E#8, .rolAbs a)
  | .absX a => some (0x3E#8, .rolAbsX a)
  | .absY _ => none
  | .indX _ => none
  | .indY _ => none

/-- The forms of ROR and their opcodes (R126). -/
def rorForm : MemOperand → Option (Byte × Instr)
  | .zp z => some (0x66#8, .rorZp z)
  | .zpX z => some (0x76#8, .rorZpX z)
  | .zpY _ => none
  | .abs a => some (0x6E#8, .rorAbs a)
  | .absX a => some (0x7E#8, .rorAbsX a)
  | .absY _ => none
  | .indX _ => none
  | .indY _ => none

/-- The forms of INC and their opcodes (R130). -/
def incForm : MemOperand → Option (Byte × Instr)
  | .zp z => some (0xE6#8, .incZp z)
  | .zpX z => some (0xF6#8, .incZpX z)
  | .zpY _ => none
  | .abs a => some (0xEE#8, .incAbs a)
  | .absX a => some (0xFE#8, .incAbsX a)
  | .absY _ => none
  | .indX _ => none
  | .indY _ => none

/-- The forms of DEC and their opcodes (R131). -/
def decForm : MemOperand → Option (Byte × Instr)
  | .zp z => some (0xC6#8, .decZp z)
  | .zpX z => some (0xD6#8, .decZpX z)
  | .zpY _ => none
  | .abs a => some (0xCE#8, .decAbs a)
  | .absX a => some (0xDE#8, .decAbsX a)
  | .absY _ => none
  | .indX _ => none
  | .indY _ => none

/-- The unknown opcodes as R70 lists them. -/
def unknownOpcodes : List Byte :=
  [0x02#8, 0x03#8, 0x04#8, 0x07#8, 0x0B#8, 0x0C#8, 0x0F#8, 0x12#8, 0x13#8, 0x14#8, 0x17#8, 0x1A#8, 0x1B#8, 0x1C#8, 0x1F#8] ++
  [0x22#8, 0x23#8, 0x27#8, 0x2B#8, 0x2F#8, 0x32#8, 0x33#8, 0x34#8, 0x37#8, 0x3A#8, 0x3B#8, 0x3C#8, 0x3F#8, 0x42#8, 0x43#8] ++
  [0x44#8, 0x47#8, 0x4B#8, 0x4F#8, 0x52#8, 0x53#8, 0x54#8, 0x57#8, 0x5A#8, 0x5B#8, 0x5C#8, 0x5F#8, 0x62#8, 0x63#8, 0x64#8] ++
  [0x67#8, 0x6B#8, 0x6F#8, 0x72#8, 0x73#8, 0x74#8, 0x77#8, 0x7A#8, 0x7B#8, 0x7C#8, 0x7F#8, 0x80#8, 0x82#8, 0x83#8, 0x87#8] ++
  [0x89#8, 0x8B#8, 0x8F#8, 0x92#8, 0x93#8, 0x97#8, 0x9B#8, 0x9C#8, 0x9E#8, 0x9F#8, 0xA3#8, 0xA7#8, 0xAB#8, 0xAF#8, 0xB2#8] ++
  [0xB3#8, 0xB7#8, 0xBB#8, 0xBF#8, 0xC2#8, 0xC3#8, 0xC7#8, 0xCB#8, 0xCF#8, 0xD2#8, 0xD3#8, 0xD4#8, 0xD7#8, 0xDA#8, 0xDB#8] ++
  [0xDC#8, 0xDF#8, 0xE2#8, 0xE3#8, 0xE7#8, 0xEB#8, 0xEF#8, 0xF2#8, 0xF3#8, 0xF4#8, 0xF7#8, 0xFA#8, 0xFB#8, 0xFC#8, 0xFF#8]

/-- The branches, with their opcodes and conditions (R186 to R193). -/
def branchForms (offset : Byte) (p : Flags) : List (Byte × Instr × Bool) :=
  [(0x90#8, .bcc offset, !p.c), (0xB0#8, .bcs offset, p.c), (0xF0#8, .beq offset, p.z),
    (0xD0#8, .bne offset, !p.z), (0x30#8, .bmi offset, p.n), (0x10#8, .bpl offset, !p.n),
    (0x50#8, .bvc offset, !p.v), (0x70#8, .bvs offset, p.v)]

/-- Whether a mnemonic is a branch whose condition holds (R186 to R193). -/
def branchTaken : Mnemonic → Flags → Bool
  | .bcc, p => !p.c
  | .bcs, p => p.c
  | .beq, p => p.z
  | .bne, p => !p.z
  | .bmi, p => p.n
  | .bpl, p => !p.n
  | .bvc, p => !p.v
  | .bvs, p => p.v
  | _, _ => false

/-- The counts of the summary R111, by class and mode, T1 included and without the extra cycles. -/
def summaryCycles : OpClass → Mode → Nat
  | .implied, _ => 2
  | .accumulator, _ => 2
  | .read, .immediate => 2
  | .read, .zeroPage => 3
  | .read, .zeroPageX => 4
  | .read, .zeroPageY => 4
  | .read, .absolute => 4
  | .read, .absoluteX => 4
  | .read, .absoluteY => 4
  | .read, .indirectX => 6
  | .read, .indirectY => 5
  | .write, .zeroPage => 3
  | .write, .zeroPageX => 4
  | .write, .zeroPageY => 4
  | .write, .absolute => 4
  | .write, .absoluteX => 5
  | .write, .absoluteY => 5
  | .write, .indirectX => 6
  | .write, .indirectY => 6
  | .rmw, .zeroPage => 5
  | .rmw, .zeroPageX => 6
  | .rmw, .absolute => 6
  | .rmw, .absoluteX => 7
  | .branch, _ => 2
  | .push, _ => 3
  | .pull, _ => 4
  | .jump, _ => 3
  | .jumpIndirect, _ => 5
  | .call, _ => 6
  | .ret, _ => 6
  | .rti, _ => 6
  | _, _ => 0

/-- The extra cycles of R258 and R259: a read whose index addition carries, a taken branch, a crossed page.
`s` is the state before the instruction. -/
def extraCycles (row : Row) (operands : List Byte) (s : State) : Nat :=
  match row.cls, row.mode, operands with
  | .read, .absoluteX, [lo, _] => if indexCarry lo s.x then 1 else 0
  | .read, .absoluteY, [lo, _] => if indexCarry lo s.y then 1 else 0
  | .read, .indirectY, [z] => if indexCarry (s.byteAt (zext16 z)) s.y then 1 else 0
  | .branch, _, [offset] =>
    if branchTaken row.mnemonic s.p then
      if branchCrosses (s.pc + 2#16) (branchTarget (s.pc + 2#16) offset) then 2 else 1
    else 0
  | _, _, _ => 0

/-- The cycles of an instruction with a memory operand up to its first write, which a failing access can cut
short; a read-modify-write's second write is at the address of the first (R112). -/
def firstCycles (row : Row) (o : MemOperand) (s : State) : List BusCycle :=
  match row.cls, row.mnemonic with
  | .read, _ => o.addressCycles false s ++ [s.readCycleAt (o.effectiveAddress s)]
  | .write, .sta => o.storeCycles s.a s
  | .write, .stx => o.storeCycles s.x s
  | .write, .sty => o.storeCycles s.y s
  | .rmw, _ => o.addressCycles true s ++
      [s.readCycleAt (o.effectiveAddress s), .write (o.effectiveAddress s) (s.byteAt (o.effectiveAddress s))]
  | _, _ => []

end Sys2Proof.Machine

open Sys2Proof Sys2Proof.Machine

/-! ## Encoding -/

/-- R61 to R65: decoding an encoded instruction gives it back, whatever bytes follow. -/
def Obligations.EncodeThenDecode : Prop :=
  ∀ (i : Instr) (rest : List Byte), i.wellFormed = true → decode (encode i ++ rest) = .ok (i, rest)

/-- R60, R62: the bytes the decoder takes are exactly the encoding of the instruction it gives. -/
def Obligations.DecodeThenEncode : Prop :=
  ∀ (bytes rest : List Byte) (i : Instr), decode bytes = .ok (i, rest) → bytes = encode i ++ rest

/-- R60 to R63: a byte string passes the checks exactly when it is the encoding of an instruction. -/
def Obligations.WellFormedBytesAreEncodings : Prop :=
  ∀ bytes : List Byte, bytesWellFormed bytes = true ↔ ∃ i : Instr, encode i = bytes

/-- Words written out from the encodings of the rules decode to the instructions they stand for. -/
def Obligations.SampleWordsDecode : Prop :=
  decodeTableWord 16 0x05A9 = some (.ldaImm 0x05#8) ∧ decodeTableWord 24 0x1234AD = some (.ldaAbs 0x1234#16) ∧
  decodeTableWord 24 0x02FF6C = some (.jmpInd 0x02FF#16) ∧ decodeTableWord 16 0xF8D0 = some (.bne 0xF8#8) ∧
  decodeTableWord 8 0xAA = some .tax ∧ decodeTableWord 24 0x10FFFE = some (.incAbsX 0x10FF#16) ∧
  decodeTableWord 8 0x02 = none

/-! ## The executor -/

/-- R81: the opcode-fetch cycle. -/
def Obligations.OpcodeFetchCycle : Prop :=
  ∀ s : State, s.rst = false → s.e = .fetchOpcode →
    (s.bus.readAnswer s.pc = none →
      cycle s = .next { s.after [.readFailed s.pc] with e := .done (.busFault .read s.pc) }) ∧
    ∀ op, s.bus.readAnswer s.pc = some op →
      ((dispatch op).isSome = true → ∃ h : Handler, h.op = op ∧ h.t = 2 ∧
        cycle s = .next { s.after [.read s.pc op] with pc := s.pc + 1#16, e := .processing h }) ∧
      (dispatch op = none →
        cycle s = .next { s.after [.read s.pc op] with pc := s.pc + 1#16, e := .done (.unknownOpcode op) })

/-- R231, R70: each of the 105 bytes R70 lists ends execution at its fetch. -/
def Obligations.UnknownOpcodeStops : Prop :=
  ∀ (s : State) (op : Byte), op ∈ unknownOpcodes → s.rst = false → s.e = .fetchOpcode →
    s.bus.readAnswer s.pc = some op →
    step s = .next { s.after [.read s.pc op] with pc := s.pc + 1#16, e := .done (.unknownOpcode op) }

/-- R218: byte $00 halts: one cycle, no stack access, no flag written. -/
def Obligations.HaltByteStops : Prop :=
  (∀ s : State, exec .halt s = .next { s with e := .done (.unknownOpcode 0x00#8) }) ∧
  ∀ s : State, s.rst = false → s.e = .fetchOpcode → s.bus.readAnswer s.pc = some 0x00#8 →
    step s = .next { s.after [.read s.pc 0x00#8] with pc := s.pc + 1#16, e := .done (.unknownOpcode 0x00#8) }

/-- R80, R83, R246: `Done` performs no cycle. That a step or a cycle from it answers a fault, and which one, is the
model's choice (log entry 11): the fault names the reason, and is `halted` exactly for the halt byte's normal end. -/
def Obligations.DoneHasNoStep : Prop :=
  ∀ (s : State) (r : DoneReason), s.rst = false → s.e = .done r →
    ∃ f : Fault, step s = .fault f ∧ cycle s = .fault f ∧ (f = .halted ↔ s.endedNormally) ∧
      (∀ op, r = .unknownOpcode op → op ≠ 0x00#8 → f = .unknownOpcode op) ∧
      ∀ kind addr, r = .busFault kind addr → f = .busFault kind addr

/-- R252, with R250 and R251: an asserted reset replaces the whole core state from any executor state, in a step or
a cycle, changes no byte of memory, and is the only way out of `Done`. -/
def Obligations.AssertedReset : Prop :=
  (∀ s : State, s.rst = true → ∃ t : State, step s = .next t ∧ cycle s = .next t ∧
    t.e = .fetchOpcode ∧ t.pc = s.params.startPc ∧ t.cycles = 0 ∧ t.a = s.params.resetA ∧
    t.x = s.params.resetX ∧ t.y = s.params.resetY ∧ t.sp = s.params.resetSp ∧ t.p = s.params.resetFlags ∧
    t.params = s.params ∧ t.bus = s.bus) ∧
  ∀ (s t : State) (r : DoneReason), s.e = .done r → step s = .next t ∨ cycle s = .next t → s.rst = true

/-- R250, R251: the state after reset, in terms of the parameters it holds. -/
def Obligations.ResetState : Prop :=
  State.reset.e = .fetchOpcode ∧ State.reset.cycles = 0 ∧ State.reset.bus.log = [] ∧
  State.reset.pc = State.reset.params.startPc ∧ State.reset.a = State.reset.params.resetA ∧
  State.reset.x = State.reset.params.resetX ∧ State.reset.y = State.reset.params.resetY ∧
  State.reset.sp = State.reset.params.resetSp ∧ State.reset.p = State.reset.params.resetFlags

/-- R56, R60, R81: when the bytes at `PC` are an instruction's encoding, the step fetches them, a cycle each, and
is the instruction's meaning after that. -/
def Obligations.StepRunsDecodedInstruction : Prop :=
  ∀ (i : Instr) (s : State), s.rst = false → s.e = .fetchOpcode → s.holds s.pc (encode i) →
    s.grantsAll (fetchCyclesAt s.pc (Instr.fetchedBytes i)) →
    step s = exec i { s.after (fetchCyclesAt s.pc (Instr.fetchedBytes i)) with
      pc := s.pc + BitVec.ofNat 16 (Instr.fetchedBytes i).length }

/-- R82, R84, R100 to R110: the cycle-stepped executor and the instruction step agree on every state, every
instruction and every bus. -/
def Obligations.CyclesMakeTheStep : Prop :=
  ∀ s : State, s.rst = false → s.e = .fetchOpcode → instructionByCycles s = step s

/-- Every step keeps the invariant. -/
def Obligations.StepKeepsInvariant : Prop :=
  ∀ s t : State, s.Inv → step s = .next t → t.Inv

/-- Every cycle keeps the invariant. -/
def Obligations.CycleKeepsInvariant : Prop :=
  ∀ s t : State, s.Inv → cycle s = .next t → t.Inv

/-- The invariant holds after reset. -/
def Obligations.ResetMeetsInvariant : Prop := State.reset.Inv

/-- R230, R245: a state that meets the invariant always has a step, unless the executor is in `Done`. -/
def Obligations.StepProgress : Prop :=
  ∀ s : State, s.Inv → (∀ r, s.e ≠ .done r) → ∃ t : State, step s = .next t

/-- R82: every cycle but one from `Done` answers a state, and is counted as one cycle. -/
def Obligations.EveryCycleCounts : Prop :=
  ∀ s : State, s.Inv → s.rst = false → (∀ r, s.e ≠ .done r) →
    ∃ (t : State) (c : BusCycle), cycle s = .next t ∧ t.cycles = s.cycles + 1 ∧ t.bus.log = c :: s.bus.log

/-! ## The bus, the status register and the stack -/

/-- R41, R42, R43: a read returns the collaborator's byte, a write is accepted, and a failed access is the fault that
R43 names and changes no byte. -/
def Obligations.BusAccesses : Prop :=
  ∀ (s : State) (a : Addr) (v : Byte),
    (∀ d, s.bus.readAnswer a = some d → busRead a s = .ok d (s.after [.read a d])) ∧
    (s.bus.readAnswer a = none →
      busRead a s = .stopped { s.after [.readFailed a] with e := .done (.busFault .read a) }) ∧
    (∀ m, s.bus.writeAnswer a v = some m → busWrite a v s = .ok () ((s.after [.write a v]).setMem m)) ∧
    (s.bus.writeAnswer a v = none →
      busWrite a v s = .stopped { s.after [.writeFailed a v] with e := .done (.busFault .write a) })

/-- R33, R34: what the output ports show: a cycle's bus ports, `done_reason`, and the counter at its width. -/
def Obligations.OutputPorts : Prop :=
  ∀ (s : State) (a : Addr) (v : Byte),
    (s.after [.read a v]).lastBusPorts =
      some { busEn := true, addr := some a, rw := some true, dout := none, din := some v, busErr := false } ∧
    (s.after [.write a v]).lastBusPorts =
      some { busEn := true, addr := some a, rw := some false, dout := some v, din := none, busErr := false } ∧
    (s.after [.readFailed a]).lastBusPorts =
      some { busEn := true, addr := some a, rw := some true, dout := none, din := none, busErr := true } ∧
    (s.after [.writeFailed a v]).lastBusPorts =
      some { busEn := true, addr := some a, rw := some false, dout := some v, din := none, busErr := true } ∧
    ((s.after [.idle]).lastBusPorts.map BusPorts.busEn) = some false ∧
    (∀ r, s.doneReason = some r ↔ s.e = .done r) ∧
    (s.params.cycleCounterWidth = none → s.cyclesPort = s.cycles) ∧
    ∀ w, s.params.cycleCounterWidth = some w → s.cyclesPort = s.cycles % 2 ^ w

/-- R26, R27, R28: the packed byte's bits, the pushed byte, and the flags a byte sets. -/
def Obligations.StatusByteViews : Prop :=
  (∀ p : Flags, (statusByte p).getLsbD 0 = p.c ∧ (statusByte p).getLsbD 1 = p.z ∧ (statusByte p).getLsbD 2 = p.i ∧
    (statusByte p).getLsbD 3 = p.d ∧ (statusByte p).getLsbD 4 = false ∧ (statusByte p).getLsbD 5 = true ∧
    (statusByte p).getLsbD 6 = p.v ∧ (statusByte p).getLsbD 7 = p.n) ∧
  (∀ p : Flags, pushedStatusByte p = statusByte p ||| 0x30#8) ∧
  ∀ b : Byte, (updateFromByte b).c = b.getLsbD 0 ∧ (updateFromByte b).z = b.getLsbD 1 ∧
    (updateFromByte b).i = b.getLsbD 2 ∧ (updateFromByte b).d = b.getLsbD 3 ∧ (updateFromByte b).v = b.getLsbD 6 ∧
    (updateFromByte b).n = b.getLsbD 7 ∧ statusByte (updateFromByte b) = (b &&& 0xCF#8) ||| 0x20#8

/-- R204: pushing two bytes and pulling twice returns them in reverse and restores `SP`, at every `SP`. -/
def Obligations.StackLaw : Prop :=
  ∀ (s : State) (u w : Byte), s.bus.mem.wf = true →
    (∀ sp : Byte, s.bus.canRead (stackAddr sp) = true ∧ s.bus.canWrite (stackAddr sp) = true) →
    ∃ t : State,
      ((push u s).bind fun _ s => (push w s).bind fun _ s =>
        (pull s).bind fun first s => (pull s).bind fun second s => Flow.ok (first, second) s) = .ok (w, u) t ∧
      t.sp = s.sp

/-! ## Loads, stores and the ALU -/

/-- R161, R162, R163: the loads. -/
def Obligations.LoadResults : Prop :=
  ∀ (o : ReadOperand) (op : Byte) (i : Instr) (s : State), s.grantsAll (o.cycles s) →
    (ldaForm o = some (op, i) → i.opcode = op ∧ exec i s = .next { s.after (o.cycles s) with
      a := o.value s, p := Flags.withNZ s.p (o.value s), e := .fetchOpcode }) ∧
    (ldxForm o = some (op, i) → i.opcode = op ∧ exec i s = .next { s.after (o.cycles s) with
      x := o.value s, p := Flags.withNZ s.p (o.value s), e := .fetchOpcode }) ∧
    (ldyForm o = some (op, i) → i.opcode = op ∧ exec i s = .next { s.after (o.cycles s) with
      y := o.value s, p := Flags.withNZ s.p (o.value s), e := .fetchOpcode })

/-- R164, R165, R166: the stores: the byte at the effective address, and nothing else. -/
def Obligations.StoreResults : Prop :=
  ∀ (o : MemOperand) (op : Byte) (i : Instr) (s : State),
    (staForm o = some (op, i) → s.grantsAll (o.storeCycles s.a s) → i.opcode = op ∧
      exec i s = .next { (s.after (o.storeCycles s.a s)).setMem
        (s.bus.mem.write (o.effectiveAddress s).toNat s.a) with e := .fetchOpcode }) ∧
    (stxForm o = some (op, i) → s.grantsAll (o.storeCycles s.x s) → i.opcode = op ∧
      exec i s = .next { (s.after (o.storeCycles s.x s)).setMem
        (s.bus.mem.write (o.effectiveAddress s).toNat s.x) with e := .fetchOpcode }) ∧
    (styForm o = some (op, i) → s.grantsAll (o.storeCycles s.y s) → i.opcode = op ∧
      exec i s = .next { (s.after (o.storeCycles s.y s)).setMem
        (s.bus.mem.write (o.effectiveAddress s).toNat s.y) with e := .fetchOpcode })

/-- R121: ADC. -/
def Obligations.AdcResult : Prop :=
  ∀ (o : ReadOperand) (op : Byte) (i : Instr) (s : State), adcForm o = some (op, i) → s.grantsAll (o.cycles s) →
    let m := o.value s
    let sum := s.a.toNat + m.toNat + (if s.p.c then 1 else 0)
    let r := BitVec.ofNat 8 (sum % 256)
    i.opcode = op ∧ exec i s = .next { s.after (o.cycles s) with
      a := r
      p := Flags.withNZ { s.p with
        c := decide (sum > 255), v := decide (((s.a ^^^ r) &&& (m ^^^ r) &&& 0x80#8) ≠ 0#8) } r
      e := .fetchOpcode }

/-- R122: SBC. -/
def Obligations.SbcResult : Prop :=
  ∀ (o : ReadOperand) (op : Byte) (i : Instr) (s : State), sbcForm o = some (op, i) → s.grantsAll (o.cycles s) →
    let m := o.value s
    let d : Int := s.a.toNat - m.toNat - (1 - (if s.p.c then 1 else 0))
    let r := BitVec.ofInt 8 (d % 256)
    i.opcode = op ∧ r = BitVec.ofNat 8 (s.a.toNat + (~~~m).toNat + (if s.p.c then 1 else 0)) ∧
      exec i s = .next { s.after (o.cycles s) with
        a := r
        p := Flags.withNZ { s.p with
          c := decide (d ≥ 0), v := decide (((s.a ^^^ r) &&& (s.a ^^^ m) &&& 0x80#8) ≠ 0#8) } r
        e := .fetchOpcode }

/-- R136, R137, R138: AND, ORA, EOR. -/
def Obligations.LogicResults : Prop :=
  ∀ (o : ReadOperand) (op : Byte) (i : Instr) (s : State), s.grantsAll (o.cycles s) →
    (andForm o = some (op, i) → i.opcode = op ∧ exec i s = .next { s.after (o.cycles s) with
      a := s.a &&& o.value s, p := Flags.withNZ s.p (s.a &&& o.value s), e := .fetchOpcode }) ∧
    (oraForm o = some (op, i) → i.opcode = op ∧ exec i s = .next { s.after (o.cycles s) with
      a := s.a ||| o.value s, p := Flags.withNZ s.p (s.a ||| o.value s), e := .fetchOpcode }) ∧
    (eorForm o = some (op, i) → i.opcode = op ∧ exec i s = .next { s.after (o.cycles s) with
      a := s.a ^^^ o.value s, p := Flags.withNZ s.p (s.a ^^^ o.value s), e := .fetchOpcode })

/-- R139: BIT. -/
def Obligations.BitResult : Prop :=
  ∀ (o : ReadOperand) (op : Byte) (i : Instr) (s : State), bitForm o = some (op, i) → s.grantsAll (o.cycles s) →
    i.opcode = op ∧ exec i s = .next { s.after (o.cycles s) with
      p := { s.p with
        z := decide (s.a &&& o.value s = 0#8), v := (o.value s).getLsbD 6, n := (o.value s).getLsbD 7 }
      e := .fetchOpcode }

/-- R127, R128, R129: CMP, CPX, CPY write C, Z and N only. -/
def Obligations.CompareResults : Prop :=
  ∀ (o : ReadOperand) (op : Byte) (i : Instr) (s : State), s.grantsAll (o.cycles s) →
    (cmpForm o = some (op, i) → i.opcode = op ∧ exec i s = .next { s.after (o.cycles s) with
      p := Flags.withNZ { s.p with c := decide (s.a.toNat ≥ (o.value s).toNat) } (s.a - o.value s)
      e := .fetchOpcode }) ∧
    (cpxForm o = some (op, i) → i.opcode = op ∧ exec i s = .next { s.after (o.cycles s) with
      p := Flags.withNZ { s.p with c := decide (s.x.toNat ≥ (o.value s).toNat) } (s.x - o.value s)
      e := .fetchOpcode }) ∧
    (cpyForm o = some (op, i) → i.opcode = op ∧ exec i s = .next { s.after (o.cycles s) with
      p := Flags.withNZ { s.p with c := decide (s.y.toNat ≥ (o.value s).toNat) } (s.y - o.value s)
      e := .fetchOpcode })

/-- R123, R124: ASL and LSR of memory and of the accumulator. -/
def Obligations.ShiftResults : Prop :=
  (∀ (o : MemOperand) (op : Byte) (i : Instr) (s : State), s.bus.mem.wf = true →
    let v := s.byteAt (o.effectiveAddress s)
    (aslForm o = some (op, i) → s.grantsAll (o.modifyCycles (v <<< 1) s) → i.opcode = op ∧
      exec i s = .next { (s.after (o.modifyCycles (v <<< 1) s)).setMem
        (s.bus.mem.write (o.effectiveAddress s).toNat (v <<< 1)) with
          p := Flags.withNZ { s.p with c := v.getLsbD 7 } (v <<< 1), e := .fetchOpcode }) ∧
    (lsrForm o = some (op, i) → s.grantsAll (o.modifyCycles (v >>> 1) s) → i.opcode = op ∧
      exec i s = .next { (s.after (o.modifyCycles (v >>> 1) s)).setMem
        (s.bus.mem.write (o.effectiveAddress s).toNat (v >>> 1)) with
          p := Flags.withNZ { s.p with c := v.getLsbD 0 } (v >>> 1), e := .fetchOpcode })) ∧
  ∀ s : State, s.grantsAll [s.dummyCycle s.pc] →
    Instr.opcode .aslAcc = 0x0A#8 ∧ Instr.opcode .lsrAcc = 0x4A#8 ∧
    exec .aslAcc s = .next { s.after [s.dummyCycle s.pc] with
      a := s.a <<< 1, p := Flags.withNZ { s.p with c := s.a.getLsbD 7 } (s.a <<< 1), e := .fetchOpcode } ∧
    exec .lsrAcc s = .next { s.after [s.dummyCycle s.pc] with
      a := s.a >>> 1, p := Flags.withNZ { s.p with c := s.a.getLsbD 0 } (s.a >>> 1), e := .fetchOpcode }

/-- R125, R126: ROL and ROR feed the previous carry into the vacated bit. -/
def Obligations.RotateResults : Prop :=
  (∀ (o : MemOperand) (op : Byte) (i : Instr) (s : State), s.bus.mem.wf = true →
    let v := s.byteAt (o.effectiveAddress s)
    let l := v <<< 1 ||| (if s.p.c then 0x01#8 else 0x00#8)
    let r := v >>> 1 ||| (if s.p.c then 0x80#8 else 0x00#8)
    (rolForm o = some (op, i) → s.grantsAll (o.modifyCycles l s) → i.opcode = op ∧
      exec i s = .next { (s.after (o.modifyCycles l s)).setMem
        (s.bus.mem.write (o.effectiveAddress s).toNat l) with
          p := Flags.withNZ { s.p with c := v.getLsbD 7 } l, e := .fetchOpcode }) ∧
    (rorForm o = some (op, i) → s.grantsAll (o.modifyCycles r s) → i.opcode = op ∧
      exec i s = .next { (s.after (o.modifyCycles r s)).setMem
        (s.bus.mem.write (o.effectiveAddress s).toNat r) with
          p := Flags.withNZ { s.p with c := v.getLsbD 0 } r, e := .fetchOpcode })) ∧
  ∀ s : State, s.grantsAll [s.dummyCycle s.pc] →
    let l := s.a <<< 1 ||| (if s.p.c then 0x01#8 else 0x00#8)
    let r := s.a >>> 1 ||| (if s.p.c then 0x80#8 else 0x00#8)
    Instr.opcode .rolAcc = 0x2A#8 ∧ Instr.opcode .rorAcc = 0x6A#8 ∧
    exec .rolAcc s = .next { s.after [s.dummyCycle s.pc] with
      a := l, p := Flags.withNZ { s.p with c := s.a.getLsbD 7 } l, e := .fetchOpcode } ∧
    exec .rorAcc s = .next { s.after [s.dummyCycle s.pc] with
      a := r, p := Flags.withNZ { s.p with c := s.a.getLsbD 0 } r, e := .fetchOpcode }

/-- R130, R131: INC and DEC of memory. -/
def Obligations.MemoryIncDecResults : Prop :=
  ∀ (o : MemOperand) (op : Byte) (i : Instr) (s : State), s.bus.mem.wf = true →
    let v := s.byteAt (o.effectiveAddress s)
    (incForm o = some (op, i) → s.grantsAll (o.modifyCycles (v + 1#8) s) → i.opcode = op ∧
      exec i s = .next { (s.after (o.modifyCycles (v + 1#8) s)).setMem
        (s.bus.mem.write (o.effectiveAddress s).toNat (v + 1#8)) with
          p := Flags.withNZ s.p (v + 1#8), e := .fetchOpcode }) ∧
    (decForm o = some (op, i) → s.grantsAll (o.modifyCycles (v - 1#8) s) → i.opcode = op ∧
      exec i s = .next { (s.after (o.modifyCycles (v - 1#8) s)).setMem
        (s.bus.mem.write (o.effectiveAddress s).toNat (v - 1#8)) with
          p := Flags.withNZ s.p (v - 1#8), e := .fetchOpcode })

/-! ## Register instructions -/

/-- R132 to R135: INX, INY, DEX, DEY. -/
def Obligations.IndexIncDecResults : Prop :=
  ∀ s : State, s.grantsAll [s.dummyCycle s.pc] →
    (Instr.opcode .inx = 0xE8#8 ∧ exec .inx s = .next { s.after [s.dummyCycle s.pc] with
      x := s.x + 1#8, p := Flags.withNZ s.p (s.x + 1#8), e := .fetchOpcode }) ∧
    (Instr.opcode .iny = 0xC8#8 ∧ exec .iny s = .next { s.after [s.dummyCycle s.pc] with
      y := s.y + 1#8, p := Flags.withNZ s.p (s.y + 1#8), e := .fetchOpcode }) ∧
    (Instr.opcode .dex = 0xCA#8 ∧ exec .dex s = .next { s.after [s.dummyCycle s.pc] with
      x := s.x - 1#8, p := Flags.withNZ s.p (s.x - 1#8), e := .fetchOpcode }) ∧
    (Instr.opcode .dey = 0x88#8 ∧ exec .dey s = .next { s.after [s.dummyCycle s.pc] with
      y := s.y - 1#8, p := Flags.withNZ s.p (s.y - 1#8), e := .fetchOpcode })

/-- R167 to R172: the transfers; TXS alone writes no flag. -/
def Obligations.TransferResults : Prop :=
  ∀ s : State, s.grantsAll [s.dummyCycle s.pc] →
    (Instr.opcode .tax = 0xAA#8 ∧ exec .tax s = .next { s.after [s.dummyCycle s.pc] with
      x := s.a, p := Flags.withNZ s.p s.a, e := .fetchOpcode }) ∧
    (Instr.opcode .tay = 0xA8#8 ∧ exec .tay s = .next { s.after [s.dummyCycle s.pc] with
      y := s.a, p := Flags.withNZ s.p s.a, e := .fetchOpcode }) ∧
    (Instr.opcode .txa = 0x8A#8 ∧ exec .txa s = .next { s.after [s.dummyCycle s.pc] with
      a := s.x, p := Flags.withNZ s.p s.x, e := .fetchOpcode }) ∧
    (Instr.opcode .tya = 0x98#8 ∧ exec .tya s = .next { s.after [s.dummyCycle s.pc] with
      a := s.y, p := Flags.withNZ s.p s.y, e := .fetchOpcode }) ∧
    (Instr.opcode .tsx = 0xBA#8 ∧ exec .tsx s = .next { s.after [s.dummyCycle s.pc] with
      x := s.sp, p := Flags.withNZ s.p s.sp, e := .fetchOpcode }) ∧
    (Instr.opcode .txs = 0x9A#8 ∧ exec .txs s = .next { s.after [s.dummyCycle s.pc] with
      sp := s.x, e := .fetchOpcode })

/-- R210 to R217: the flag instructions write exactly one flag, NOP none; two cycles each. -/
def Obligations.FlagInstructionResults : Prop :=
  ∀ s : State, s.grantsAll [s.dummyCycle s.pc] →
    (Instr.opcode .clc = 0x18#8 ∧ exec .clc s = .next { s.after [s.dummyCycle s.pc] with
      p := { s.p with c := false }, e := .fetchOpcode }) ∧
    (Instr.opcode .sec = 0x38#8 ∧ exec .sec s = .next { s.after [s.dummyCycle s.pc] with
      p := { s.p with c := true }, e := .fetchOpcode }) ∧
    (Instr.opcode .cli = 0x58#8 ∧ exec .cli s = .next { s.after [s.dummyCycle s.pc] with
      p := { s.p with i := false }, e := .fetchOpcode }) ∧
    (Instr.opcode .sei = 0x78#8 ∧ exec .sei s = .next { s.after [s.dummyCycle s.pc] with
      p := { s.p with i := true }, e := .fetchOpcode }) ∧
    (Instr.opcode .cld = 0xD8#8 ∧ exec .cld s = .next { s.after [s.dummyCycle s.pc] with
      p := { s.p with d := false }, e := .fetchOpcode }) ∧
    (Instr.opcode .sed = 0xF8#8 ∧ exec .sed s = .next { s.after [s.dummyCycle s.pc] with
      p := { s.p with d := true }, e := .fetchOpcode }) ∧
    (Instr.opcode .clv = 0xB8#8 ∧ exec .clv s = .next { s.after [s.dummyCycle s.pc] with
      p := { s.p with v := false }, e := .fetchOpcode }) ∧
    (Instr.opcode .nop = 0xEA#8 ∧ exec .nop s = .next { s.after [s.dummyCycle s.pc] with e := .fetchOpcode } ∧
      totalCycles .nop [s.dummyCycle s.pc] = 2)

/-! ## Control flow and the stack -/

/-- R186 to R193: a branch whose condition fails goes on at the next instruction; one whose condition holds goes to
the target, with one dummy cycle, and a second one when the target is in another page (R108). -/
def Obligations.BranchResults : Prop :=
  ∀ (s : State) (offset op : Byte) (i : Instr) (taken : Bool), (op, i, taken) ∈ branchForms offset s.p →
    let target := s.pc + offset.signExtend 16
    let cs := s.dummyCycle s.pc ::
      (if hiByte target ≠ hiByte s.pc then [s.dummyCycle (joinBytes (hiByte s.pc) (loByte target))] else [])
    i.opcode = op ∧
    (taken = false → exec i s = .next { s with e := .fetchOpcode } ∧ totalCycles i [] = 2) ∧
    (taken = true → s.grantsAll cs →
      exec i s = .next { s.after cs with pc := target, e := .fetchOpcode } ∧
      totalCycles i cs = if hiByte target = hiByte s.pc then 3 else 4)

/-- R181: JMP, absolute and indirect; the pointer's high byte never comes from the next page. -/
def Obligations.JmpResults : Prop :=
  ∀ (s : State) (a : Addr),
    let high := joinBytes (hiByte a) (loByte a + 1#8)
    let cs := [s.readCycleAt a, s.readCycleAt high]
    (Instr.opcode (.jmpAbs a) = 0x4C#8 ∧ exec (.jmpAbs a) s = .next { s with pc := a, e := .fetchOpcode } ∧
      totalCycles (.jmpAbs a) [] = 3) ∧
    (Instr.opcode (.jmpInd a) = 0x6C#8 ∧ totalCycles (.jmpInd a) cs = 5 ∧
      (s.grantsAll cs → exec (.jmpInd a) s = .next { s.after cs with
        pc := joinBytes (s.byteAt high) (s.byteAt a), e := .fetchOpcode }))

/-- R182: JSR pushes the address of its last byte, high byte first, and jumps; its high target byte is read after
both pushes. `s.pc` is the address of the instruction's last byte. -/
def Obligations.JsrResult : Prop :=
  ∀ (s : State) (a : Addr),
    let m := (s.bus.mem.write (stackAddr s.sp).toNat (hiByte s.pc)).write (stackAddr (s.sp - 1#8)).toNat (loByte s.pc)
    let hi := m.read s.pc.toNat
    let cs := [s.dummyCycle (stackAddr s.sp), .write (stackAddr s.sp) (hiByte s.pc),
      .write (stackAddr (s.sp - 1#8)) (loByte s.pc), .read s.pc hi]
    Instr.opcode (.jsr a) = 0x20#8 ∧ totalCycles (.jsr a) cs = 6 ∧
    (s.grantsAll cs → exec (.jsr a) s = .next { (s.after cs).setMem m with
      sp := s.sp - 2#8, pc := joinBytes hi (loByte a), e := .fetchOpcode }) ∧
    (s.byteAt s.pc = hiByte a → s.pc ≠ stackAddr s.sp → s.pc ≠ stackAddr (s.sp - 1#8) →
      joinBytes hi (loByte a) = a)

/-- R183: RTS. -/
def Obligations.RtsResult : Prop :=
  ∀ s : State,
    let ret := joinBytes (s.byteAt (stackAddr (s.sp + 2#8))) (s.byteAt (stackAddr (s.sp + 1#8)))
    let cs := [s.dummyCycle s.pc, s.dummyCycle (stackAddr s.sp), s.readCycleAt (stackAddr (s.sp + 1#8)),
      s.readCycleAt (stackAddr (s.sp + 2#8)), s.dummyCycle ret]
    Instr.opcode .rts = 0x60#8 ∧ totalCycles .rts cs = 6 ∧
    (s.grantsAll cs → exec .rts s = .next { s.after cs with
      sp := s.sp + 2#8, pc := ret + 1#16, e := .fetchOpcode })

/-- R184: RTI. -/
def Obligations.RtiResult : Prop :=
  ∀ s : State,
    let b := s.byteAt (stackAddr (s.sp + 1#8))
    let target := joinBytes (s.byteAt (stackAddr (s.sp + 3#8))) (s.byteAt (stackAddr (s.sp + 2#8)))
    let cs := [s.dummyCycle s.pc, s.dummyCycle (stackAddr s.sp), s.readCycleAt (stackAddr (s.sp + 1#8)),
      s.readCycleAt (stackAddr (s.sp + 2#8)), s.readCycleAt (stackAddr (s.sp + 3#8))]
    Instr.opcode .rti = 0x40#8 ∧ totalCycles .rti cs = 6 ∧
    (s.grantsAll cs → exec .rti s = .next { s.after cs with
      sp := s.sp + 3#8
      pc := target
      p := { c := b.getLsbD 0, z := b.getLsbD 1, i := b.getLsbD 2, d := b.getLsbD 3, v := b.getLsbD 6, n := b.getLsbD 7 }
      e := .fetchOpcode })

/-- R200, R201: PHA and PHP. -/
def Obligations.PushResults : Prop :=
  ∀ s : State,
    let cs := fun v => [s.dummyCycle s.pc, .write (stackAddr s.sp) v]
    (Instr.opcode .pha = 0x48#8 ∧ totalCycles .pha (cs s.a) = 3 ∧
      (s.grantsAll (cs s.a) → exec .pha s = .next { (s.after (cs s.a)).setMem
        (s.bus.mem.write (stackAddr s.sp).toNat s.a) with sp := s.sp - 1#8, e := .fetchOpcode })) ∧
    (Instr.opcode .php = 0x08#8 ∧ totalCycles .php (cs (statusByte s.p ||| 0x30#8)) = 3 ∧
      (s.grantsAll (cs (statusByte s.p ||| 0x30#8)) →
        exec .php s = .next { (s.after (cs (statusByte s.p ||| 0x30#8))).setMem
          (s.bus.mem.write (stackAddr s.sp).toNat (statusByte s.p ||| 0x30#8)) with
            sp := s.sp - 1#8, e := .fetchOpcode }))

/-- R202, R203: PLA and PLP. -/
def Obligations.PullResults : Prop :=
  ∀ s : State,
    let b := s.byteAt (stackAddr (s.sp + 1#8))
    let cs := [s.dummyCycle s.pc, s.dummyCycle (stackAddr s.sp), s.readCycleAt (stackAddr (s.sp + 1#8))]
    Instr.opcode .pla = 0x68#8 ∧ Instr.opcode .plp = 0x28#8 ∧ totalCycles .pla cs = 4 ∧ totalCycles .plp cs = 4 ∧
    (s.grantsAll cs →
      exec .pla s = .next { s.after cs with
        sp := s.sp + 1#8, a := b, p := Flags.withNZ s.p b, e := .fetchOpcode } ∧
      exec .plp s = .next { s.after cs with
        sp := s.sp + 1#8
        p := { c := b.getLsbD 0, z := b.getLsbD 1, i := b.getLsbD 2, d := b.getLsbD 3, v := b.getLsbD 6, n := b.getLsbD 7 }
        e := .fetchOpcode })

/-! ## Faults -/

/-- R112, R232, R233: the first access of a memory operand's sequence that plain memory fails ends the instruction
there: the cycles before it happened, its own cycle is counted, every register, flag and byte is as before. -/
def Obligations.OperandBusFault : Prop :=
  ∀ (i : Instr) (row : Row) (o : MemOperand) (s : State) (before rest : List BusCycle) (c : BusCycle) (r : DoneReason),
    i.row = some row → row.cls = .read ∨ row.cls = .write ∨ row.cls = .rmw →
    Mode.memOperand row.mode (encode i).tail = some o →
    firstCycles row o s = before ++ c :: rest → s.grantsAll before → s.bus.denies c = true →
    BusCycle.fault c = some r →
    ∃ t : State, exec i s = .next t ∧ t.e = .done r ∧ t.cycles = s.cycles + before.length + 1 ∧
      t.bus.log = BusCycle.failed c :: (before.reverse ++ s.bus.log) ∧ t.a = s.a ∧ t.x = s.x ∧ t.y = s.y ∧
      t.sp = s.sp ∧ t.pc = s.pc ∧ t.p = s.p ∧ ∀ a : Addr, t.byteAt a = s.byteAt a

/-- R47, R48, R112: when plain memory fails the first push or pull of an instruction, it ends there with `SP`, every
register, flag and byte as before: PHA and PHP after their one dummy read, JSR after its own, the pulls and
returns after both of theirs. -/
def Obligations.StackBusFault : Prop :=
  ∀ s : State,
    let d := s.dummyCycle s.pc
    let ds := s.dummyCycle (stackAddr s.sp)
    let pulled := stackAddr (s.sp + 1#8)
    (s.grantsAll [d] → s.bus.denies (.write (stackAddr s.sp) s.a) = true →
      exec .pha s = .next (s.failedWrite [d] (stackAddr s.sp) s.a) ∧
      exec .php s = .next (s.failedWrite [d] (stackAddr s.sp) (statusByte s.p ||| 0x30#8))) ∧
    (s.grantsAll [ds] → s.bus.denies (.write (stackAddr s.sp) (hiByte s.pc)) = true → ∀ target : Addr,
      exec (.jsr target) s = .next (s.failedWrite [ds] (stackAddr s.sp) (hiByte s.pc))) ∧
    (s.grantsAll [d, ds] → s.bus.denies (s.readCycleAt pulled) = true → ∀ i, i = .pla ∨ i = .plp ∨ i = .rts ∨ i = .rti →
      exec i s = .next (s.failedRead [d, ds] pulled))

/-- R233, R235: when a later push of JSR or a later pull of RTS or RTI fails, what the cycles before it did stays: the
first pushed byte, each step of `SP`, and the flags RTI pulled; `PC` is as before. -/
def Obligations.LaterStackBusFault : Prop :=
  ∀ (s : State) (target : Addr),
    let d := s.dummyCycle s.pc
    let ds := s.dummyCycle (stackAddr s.sp)
    let pushHigh : BusCycle := .write (stackAddr s.sp) (hiByte s.pc)
    let pull1 := s.readCycleAt (stackAddr (s.sp + 1#8))
    let pull2 := s.readCycleAt (stackAddr (s.sp + 2#8))
    let pull3 := s.readCycleAt (stackAddr (s.sp + 3#8))
    let b := s.byteAt (stackAddr (s.sp + 1#8))
    (s.grantsAll [ds, pushHigh] → s.bus.denies (.write (stackAddr (s.sp - 1#8)) (loByte s.pc)) = true →
      exec (.jsr target) s = .next
        { (s.failedWrite [ds, pushHigh] (stackAddr (s.sp - 1#8)) (loByte s.pc)).setMem
            (s.bus.mem.write (stackAddr s.sp).toNat (hiByte s.pc)) with sp := s.sp - 1#8 }) ∧
    (s.grantsAll [d, ds, pull1] → s.bus.denies pull2 = true →
      exec .rts s = .next { s.failedRead [d, ds, pull1] (stackAddr (s.sp + 2#8)) with sp := s.sp + 1#8 } ∧
      exec .rti s = .next { s.failedRead [d, ds, pull1] (stackAddr (s.sp + 2#8)) with
        sp := s.sp + 1#8, p := updateFromByte b }) ∧
    (s.grantsAll [d, ds, pull1, pull2] → s.bus.denies pull3 = true →
      exec .rti s = .next { s.failedRead [d, ds, pull1, pull2] (stackAddr (s.sp + 3#8)) with
        sp := s.sp + 2#8, p := updateFromByte b })

/-- R110, R112: a failing read of a jump's target: of either byte of JMP's pointer, or of JSR's high target byte,
which keeps both pushed bytes; `PC` is as before. -/
def Obligations.JumpTargetBusFault : Prop :=
  ∀ (s : State) (a : Addr),
    let high := joinBytes (hiByte a) (loByte a + 1#8)
    let cs := [s.dummyCycle (stackAddr s.sp), .write (stackAddr s.sp) (hiByte s.pc),
      .write (stackAddr (s.sp - 1#8)) (loByte s.pc)]
    (s.bus.denies (s.readCycleAt a) = true → exec (.jmpInd a) s = .next (s.failedRead [] a)) ∧
    (s.grantsAll [s.readCycleAt a] → s.bus.denies (s.readCycleAt high) = true →
      exec (.jmpInd a) s = .next (s.failedRead [s.readCycleAt a] high)) ∧
    (s.grantsAll cs → s.bus.denies (s.readCycleAt s.pc) = true →
      exec (.jsr a) s = .next { (s.failedRead cs s.pc).setMem
        ((s.bus.mem.write (stackAddr s.sp).toNat (hiByte s.pc)).write
          (stackAddr (s.sp - 1#8)).toNat (loByte s.pc)) with sp := s.sp - 2#8 })

/-- R99, R112: under `NmosDummyRead` a dummy read fails as any read does: the one at `PC`, the stack read of the
pulls, the returns and JSR, RTS's last one and the two of a taken branch, after `PC` was loaded. -/
def Obligations.DummyReadBusFault : Prop :=
  ∀ s : State, s.params.internalAccess = .nmosDummyRead →
    let r := s.readCycleAt s.pc
    let ret := joinBytes (s.byteAt (stackAddr (s.sp + 2#8))) (s.byteAt (stackAddr (s.sp + 1#8)))
    let pulls := [r, s.readCycleAt (stackAddr s.sp), s.readCycleAt (stackAddr (s.sp + 1#8)),
      s.readCycleAt (stackAddr (s.sp + 2#8))]
    (∀ (i : Instr) (row : Row), i.row = some row →
      (row.cls ∈ [.accumulator, .implied, .push, .pull, .ret, .rti] → s.bus.denies r = true →
        exec i s = .next (s.failedRead [] s.pc)) ∧
      (row.cls ∈ [.pull, .ret, .rti] → s.grantsAll [r] → s.bus.denies (s.readCycleAt (stackAddr s.sp)) = true →
        exec i s = .next (s.failedRead [r] (stackAddr s.sp))) ∧
      (row.cls = .call → s.bus.denies (s.readCycleAt (stackAddr s.sp)) = true →
        exec i s = .next (s.failedRead [] (stackAddr s.sp)))) ∧
    (s.grantsAll pulls → s.bus.denies (s.readCycleAt ret) = true →
      exec .rts s = .next { s.failedRead pulls ret with sp := s.sp + 2#8, pc := ret }) ∧
    ∀ (offset op : Byte) (i : Instr), (op, i, true) ∈ branchForms offset s.p →
      let target := s.pc + offset.signExtend 16
      let wrongPage := joinBytes (hiByte s.pc) (loByte target)
      (s.bus.denies r = true → exec i s = .next (s.failedRead [] s.pc)) ∧
      (hiByte target ≠ hiByte s.pc → s.grantsAll [r] → s.bus.denies (s.readCycleAt wrongPage) = true →
        exec i s = .next { s.failedRead [r] wrongPage with pc := target })

/-- R81, R112: when a fetch of the instruction at `PC` fails, the opcode's or an operand's, the instruction ends
there, `PC` past the bytes fetched before. -/
def Obligations.FetchBusFault : Prop :=
  ∀ (i : Instr) (s : State) (before rest : List BusCycle) (a : Addr) (v : Byte), s.rst = false → s.e = .fetchOpcode →
    s.holds s.pc (encode i) → fetchCyclesAt s.pc (Instr.fetchedBytes i) = before ++ .read a v :: rest →
    s.grantsAll before → s.bus.denies (.read a v) = true →
    step s = .next { s.failedRead before a with pc := s.pc + BitVec.ofNat 16 before.length }

/-! ## Frames, on any bus -/

/-- R21, R22, R23, R24: only the instructions those rules list write `A`, `X`, `Y` and `SP`, and only the control
transfers load `PC`. -/
def Obligations.RegisterWriters : Prop :=
  ∀ (i : Instr) (row : Row) (s t : State), i.row = some row → exec i s = .next t →
    (row.mnemonic ∉ [.lda, .pla, .txa, .tya, .adc, .sbc, .and, .ora, .eor] → row.cls ≠ .accumulator → t.a = s.a) ∧
    (row.mnemonic ∉ [.ldx, .tax, .tsx, .inx, .dex] → t.x = s.x) ∧
    (row.mnemonic ∉ [.ldy, .tay, .iny, .dey] → t.y = s.y) ∧
    (row.mnemonic ∉ [.txs, .pha, .php, .pla, .plp, .jsr, .rts, .rti] → t.sp = s.sp) ∧
    (row.cls ∉ [.branch, .jump, .jumpIndirect, .call, .ret, .rti] → t.pc = s.pc)

/-- R29: only the instructions its table lists write each flag. -/
def Obligations.FlagWriters : Prop :=
  ∀ (i : Instr) (row : Row) (s t : State), i.row = some row → exec i s = .next t →
    (row.mnemonic ∉ [.adc, .sbc, .asl, .lsr, .rol, .ror, .cmp, .cpx, .cpy, .clc, .sec, .plp, .rti] → t.p.c = s.p.c) ∧
    (row.mnemonic ∉ [.adc, .sbc, .and, .ora, .eor, .bit, .asl, .lsr, .rol, .ror, .cmp, .cpx, .cpy, .inc, .dec, .inx,
        .iny, .dex, .dey, .lda, .ldx, .ldy, .tax, .tay, .txa, .tya, .tsx, .pla, .plp, .rti] →
      t.p.z = s.p.z ∧ t.p.n = s.p.n) ∧
    (row.mnemonic ∉ [.adc, .sbc, .bit, .clv, .plp, .rti] → t.p.v = s.p.v) ∧
    (row.mnemonic ∉ [.cli, .sei, .plp, .rti] → t.p.i = s.p.i) ∧
    (row.mnemonic ∉ [.cld, .sed, .plp, .rti] → t.p.d = s.p.d)

/-- R43, R53, R83: an instruction never writes the parameters, the reset input or the windows, ends at a boundary or
in `Done`, and the bus has seen exactly the cycles it counted, oldest history kept. -/
def Obligations.InstructionKeepsTheRest : Prop :=
  ∀ (i : Instr) (s t : State), exec i s = .next t →
    t.params = s.params ∧ t.rst = s.rst ∧ t.bus.regions = s.bus.regions ∧
    (t.e = .fetchOpcode ∨ ∃ r, t.e = .done r) ∧
    ∃ l, t.bus.log = l ++ s.bus.log ∧ t.cycles = s.cycles + l.length

/-- R98: an instruction that stores nothing changes no byte of memory, on any bus. -/
def Obligations.NonStoringKeepsMemory : Prop :=
  ∀ (i : Instr) (s t : State), (∀ row, i.row = some row → row.cls ∉ [.write, .rmw, .push, .call]) →
    exec i s = .next t → ∀ a : Addr, t.byteAt a = s.byteAt a

/-- R98, R102 to R107: a store or read-modify-write changes at most the byte at the address its operand resolves
to, and no byte when an access before fails. -/
def Obligations.StoringKeepsOtherBytes : Prop :=
  ∀ (i : Instr) (row : Row) (o : MemOperand) (s t : State), i.row = some row →
    row.cls = .write ∨ row.cls = .rmw → Mode.memOperand row.mode (encode i).tail = some o →
    exec i s = .next t →
    (∀ ea s', o.resolve true s = .ok ea s' → ∀ a : Addr, a ≠ ea → t.byteAt a = s.byteAt a) ∧
    (∀ s', o.resolve true s = .stopped s' → ∀ a : Addr, t.byteAt a = s.byteAt a)

/-- R46, R47, R182: PHA and PHP change at most the byte at `$0100 | SP`, JSR that one and the next below. -/
def Obligations.PushKeepsOtherBytes : Prop :=
  ∀ (s t : State) (a : Addr),
    (exec .pha s = .next t ∨ exec .php s = .next t → a ≠ stackAddr s.sp → t.byteAt a = s.byteAt a) ∧
    ∀ target, exec (.jsr target) s = .next t → a ≠ stackAddr s.sp → a ≠ stackAddr (s.sp - 1#8) →
      t.byteAt a = s.byteAt a

/-! ## Whole-machine laws -/

/-- R111, R258, R259: the cycles of every instruction, T1 included: the summary's count, one more for a read whose
index addition carries, one or two more for a taken branch, fixed for stores and read-modify-writes; one cycle
for byte $00 and every unknown opcode. -/
def Obligations.InstructionCycleCounts : Prop :=
  (∀ (i : Instr) (row : Row) (s : State), i.row = some row → s.rst = false → s.e = .fetchOpcode → s.plainRam →
    s.holds s.pc (encode i) → ∃ t : State, step s = .next t ∧ t.e = .fetchOpcode ∧
      t.cycles = s.cycles + summaryCycles row.cls row.mode + extraCycles row (encode i).tail s) ∧
  ∀ s : State, s.rst = false → s.e = .fetchOpcode → s.bus.canRead s.pc = true → dispatch (s.byteAt s.pc) = none →
    ∃ t : State, step s = .next t ∧ t.cycles = s.cycles + 1

/-- 92_eei_decisions.md D5: on plain RAM the two values of `INTERNAL_CYCLE_ACCESS` give the same states. -/
def Obligations.DummyAccessesChangeNothing : Prop :=
  ∀ s : State, s.rst = false → s.e = .fetchOpcode → s.plainRam →
    ∃ t u : State, step { s with params := { s.params with internalAccess := .nmosDummyRead } } = .next t ∧
      step { s with params := { s.params with internalAccess := .noAccess } } = .next u ∧
      t.a = u.a ∧ t.x = u.x ∧ t.y = u.y ∧ t.sp = u.sp ∧ t.pc = u.pc ∧ t.p = u.p ∧ t.e = u.e ∧
      t.cycles = u.cycles ∧ t.bus.mem = u.bus.mem

/-- R194: from any `PC`, RTS with the stack as JSR left it returns to the byte after the JSR. -/
def Obligations.SubroutineReturns : Prop :=
  ∀ (s : State) (target q : Addr), s.plainRam → s.bus.mem.wf = true →
    ∃ t u : State, exec (.jsr target) s = .next t ∧ t.e = .fetchOpcode ∧ exec .rts { t with pc := q } = .next u ∧
      u.e = .fetchOpcode ∧ u.pc = s.pc + 1#16 ∧ u.sp = s.sp ∧ u.a = s.a ∧ u.x = s.x ∧ u.y = s.y ∧ u.p = s.p

/-- R203: PHP then PLP gives back the flags and `SP`, from any `PC` and whatever the flags became in between. -/
def Obligations.StatusSurvivesPushPull : Prop :=
  ∀ (s : State) (q : Addr) (f : Flags), s.plainRam → s.bus.mem.wf = true →
    ∃ t u : State, exec .php s = .next t ∧ t.e = .fetchOpcode ∧ t.p = s.p ∧
      exec .plp { t with pc := q, p := f } = .next u ∧ u.e = .fetchOpcode ∧ u.p = s.p ∧ u.sp = s.sp ∧
      u.a = s.a ∧ u.x = s.x ∧ u.y = s.y

/-- R141: SBC with the complemented carry undoes ADC. -/
def Obligations.InverseLaw : Prop :=
  ∀ (s : State) (b : Byte), ∃ t u : State, exec (.adcImm b) s = .next t ∧
    exec (.sbcImm b) { t with p := { t.p with c := !s.p.c } } = .next u ∧ u.a = s.a ∧ u.p.c = !t.p.c

/-- R140: V of ADC and SBC is the two's-complement overflow of the signed sum or difference. -/
def Obligations.OverflowIsSigned : Prop :=
  ∀ (s : State) (m : Byte), ∃ t u : State, exec (.adcImm m) s = .next t ∧ exec (.sbcImm m) s = .next u ∧
    (t.p.v = true ↔ s.a.toInt + m.toInt + (if s.p.c then 1 else 0) < -128 ∨
      127 < s.a.toInt + m.toInt + (if s.p.c then 1 else 0)) ∧
    (u.p.v = true ↔ s.a.toInt - m.toInt - (if s.p.c then 0 else 1) < -128 ∨
      127 < s.a.toInt - m.toInt - (if s.p.c then 0 else 1))

/-- R120: ADC and SBC give the same whatever the decimal flag holds, in every form and on any bus. -/
def Obligations.DecimalFlagIgnored : Prop :=
  ∀ (i : Instr) (row : Row) (s t : State) (d : Bool), i.row = some row → row.mnemonic = .adc ∨ row.mnemonic = .sbc →
    exec i s = .next t →
    exec i { s with p := { s.p with d := d } } = .next { t with p := { t.p with d := d } }
end

