-- ==== Sys2Proof/Laws/Address.lean ====
section
/-! SUPPORT. Byte order and the address decoder: joining and splitting a 16-bit value, and the two forms R92 gives the
indexed address. -/

namespace Sys2Proof

theorem joinBytes_toNat (hi lo : Byte) : (joinBytes hi lo).toNat = hi.toNat * 256 + lo.toNat := by
  have := lo.isLt
  simp only [joinBytes, BitVec.toNat_append]
  rw [← Nat.shiftLeft_add_eq_or_of_lt (by omega) hi.toNat, Nat.shiftLeft_eq]

theorem hiByte_toNat (a : Addr) : (hiByte a).toNat = a.toNat / 256 := by
  have := a.isLt
  simp [hiByte, Nat.shiftRight_eq_div_pow]
  omega

theorem loByte_toNat (a : Addr) : (loByte a).toNat = a.toNat % 256 := by
  simp [loByte]

@[simp] theorem hiByte_joinBytes (hi lo : Byte) : hiByte (joinBytes hi lo) = hi := by
  apply BitVec.eq_of_toNat_eq
  have := lo.isLt
  rw [hiByte_toNat, joinBytes_toNat]
  omega

@[simp] theorem loByte_joinBytes (hi lo : Byte) : loByte (joinBytes hi lo) = lo := by
  apply BitVec.eq_of_toNat_eq
  have := lo.isLt
  rw [loByte_toNat, joinBytes_toNat]
  omega

@[simp] theorem joinBytes_hi_lo (a : Addr) : joinBytes (hiByte a) (loByte a) = a := by
  apply BitVec.eq_of_toNat_eq
  rw [joinBytes_toNat, hiByte_toNat, loByte_toNat]
  omega

namespace Machine

/-- R92: the indexed address is the unfixed address with the carry added to its high byte. -/
theorem indexedAddr_eq_fixed (base : Addr) (idx : Byte) :
    indexedAddr base idx =
      joinBytes (hiByte base + (if indexCarry (loByte base) idx then 1#8 else 0#8)) (loByte base + idx) := by
  apply BitVec.eq_of_toNat_eq
  have := base.isLt
  have := idx.isLt
  rw [joinBytes_toNat]
  have hc : (if indexCarry (loByte base) idx then 1#8 else 0#8).toNat
      = if (loByte base).toNat + idx.toNat > 255 then 1 else 0 := by
    simp only [indexCarry, decide_eq_true_eq]; split <;> rfl
  simp only [indexedAddr, zext16, BitVec.toNat_add, hc, hiByte_toNat, loByte_toNat, BitVec.toNat_setWidth]
  split <;> omega

/-- R92: the unfixed address is the effective address when the index addition does not carry. -/
theorem unfixedAddr_eq_indexedAddr (base : Addr) (idx : Byte) (h : indexCarry (loByte base) idx = false) :
    unfixedAddr base idx = indexedAddr base idx := by
  rw [indexedAddr_eq_fixed, h]
  simp [unfixedAddr]

/-- A stack address is in the stack page (R46). -/
theorem stackAddr_eq (sp : Byte) : stackAddr sp = joinBytes 0x01#8 sp := by
  revert sp; decide

end Machine

end Sys2Proof
end

