-- ==== Sys2Proof/Laws/Memory.lean ====
section
/-! SUPPORT. Plain memory: reading after writing, and the canonical form, which every operation keeps and in which
equal memories are equal data. -/

namespace Sys2Proof.Machine

open Sys2Proof

theorem Memory.read_put (rest : Memory) (a b : Nat) (v : Byte)
    (h : v = Config.fillByte → rest.read a = Config.fillByte) :
    (Memory.put a v rest).read b = if b = a then v else rest.read b := by
  unfold Memory.put
  by_cases hv : v = Config.fillByte
  · by_cases hb : b = a
    · subst hb; simp [hv, h hv]
    · simp [hv, hb]
  · simp [hv, Memory.read]

/-- A write leaves every other address alone, whatever the memory's form. -/
theorem Memory.read_write_other (m : Memory) {a b : Nat} (v : Byte) (h : b ≠ a) :
    (m.write a v).read b = m.read b := by
  have put_other (rest : Memory) : (Memory.put a v rest).read b = rest.read b := by
    unfold Memory.put
    split
    · rfl
    · simp [Memory.read, h]
  induction m with
  | nil => exact put_other []
  | cons head rest ih =>
    obtain ⟨c, w⟩ := head
    unfold Memory.write
    split
    · exact put_other _
    · split
      · next hac => rw [put_other, Memory.read, if_neg (by omega)]
      · simp only [Memory.read, ih]

/-- Below its least entry a canonical memory reads the fill byte. -/
theorem Memory.read_below (m : Memory) {least a : Nat} (h : Memory.wfFrom least m = true) (ha : a < least) :
    m.read a = Config.fillByte := by
  induction m generalizing least with
  | nil => rfl
  | cons head rest ih =>
    obtain ⟨c, w⟩ := head
    simp only [Memory.wfFrom, Bool.and_eq_true, decide_eq_true_eq] at h
    rw [Memory.read, if_neg (by omega)]
    exact ih h.2 (by omega)

theorem Memory.wfFrom_mono (m : Memory) {least least' : Nat} (h : Memory.wfFrom least m = true)
    (hl : least' ≤ least) : Memory.wfFrom least' m = true := by
  cases m with
  | nil => rfl
  | cons head rest =>
    obtain ⟨c, w⟩ := head
    simp only [Memory.wfFrom, Bool.and_eq_true, decide_eq_true_eq] at h ⊢
    exact ⟨⟨⟨by omega, h.1.1.2⟩, h.1.2⟩, h.2⟩

theorem Memory.read_write_same_from (m : Memory) {least : Nat} (a : Nat) (v : Byte)
    (h : Memory.wfFrom least m = true) : (m.write a v).read a = v := by
  induction m generalizing least with
  | nil =>
    simp only [Memory.write]
    rw [Memory.read_put _ _ _ _ (fun _ => rfl), if_pos rfl]
  | cons head rest ih =>
    obtain ⟨c, w⟩ := head
    have hrest := h
    simp only [Memory.wfFrom, Bool.and_eq_true, decide_eq_true_eq] at hrest
    simp only [Memory.write]
    split
    · next hac =>
      rw [Memory.read_put, if_pos rfl]
      intro _
      rw [Memory.read, if_neg (by omega)]
      exact Memory.read_below rest hrest.2 (by omega)
    · split
      · next hac =>
        rw [Memory.read_put, if_pos rfl]
        exact fun _ => Memory.read_below rest hrest.2 (by omega)
      · next h1 h2 =>
        rw [Memory.read, if_neg h2]
        exact ih hrest.2

/-- A read after a write to the same address gives the value written. -/
theorem Memory.read_write_same (m : Memory) (a : Nat) (v : Byte) (h : m.wf = true) :
    (m.write a v).read a = v := Memory.read_write_same_from m a v h

theorem Memory.put_wf (rest : Memory) {least a : Nat} (v : Byte) (hl : least ≤ a) (ha : a < 65536)
    (h : Memory.wfFrom (a + 1) rest = true) : Memory.wfFrom least (Memory.put a v rest) = true := by
  unfold Memory.put
  split
  · exact Memory.wfFrom_mono rest h (by omega)
  · next hv => simp [Memory.wfFrom, hl, ha, hv, h]

theorem Memory.write_wfFrom (m : Memory) {least a : Nat} (v : Byte) (hl : least ≤ a) (ha : a < 65536)
    (h : Memory.wfFrom least m = true) : Memory.wfFrom least (m.write a v) = true := by
  induction m generalizing least with
  | nil => exact Memory.put_wf [] v hl ha rfl
  | cons head rest ih =>
    obtain ⟨c, w⟩ := head
    have hrest := h
    simp only [Memory.wfFrom, Bool.and_eq_true, decide_eq_true_eq] at hrest
    unfold Memory.write
    split
    · next hac =>
      refine Memory.put_wf _ v hl ha ?_
      simp [Memory.wfFrom, hrest.1.1.2, hrest.1.2, hrest.2]
      omega
    · split
      · next hac => exact Memory.put_wf rest v hl ha (hac ▸ hrest.2)
      · simp only [Memory.wfFrom, Bool.and_eq_true, decide_eq_true_eq]
        exact ⟨hrest.1, ih (by omega) hrest.2⟩

/-- A write keeps the canonical form. -/
theorem Memory.write_wf (m : Memory) (a : Addr) (v : Byte) (h : m.wf = true) :
    (m.write a.toNat v).wf = true := Memory.write_wfFrom m v (Nat.zero_le _) a.isLt h

theorem Memory.ext_from (m m' : Memory) {least : Nat} (h : Memory.wfFrom least m = true)
    (h' : Memory.wfFrom least m' = true) (heq : ∀ a, m.read a = m'.read a) : m = m' := by
  induction m generalizing m' least with
  | nil =>
    cases m' with
    | nil => rfl
    | cons head rest =>
      obtain ⟨c, w⟩ := head
      simp only [Memory.wfFrom, Bool.and_eq_true, decide_eq_true_eq] at h'
      have := heq c
      simp [Memory.read] at this
      exact absurd this.symm h'.1.2
  | cons head rest ih =>
    obtain ⟨c, w⟩ := head
    have hrest := h
    simp only [Memory.wfFrom, Bool.and_eq_true, decide_eq_true_eq] at hrest
    cases m' with
    | nil =>
      have := heq c
      simp [Memory.read] at this
      exact absurd this hrest.1.2
    | cons head' rest' =>
      obtain ⟨c', w'⟩ := head'
      have hrest' := h'
      simp only [Memory.wfFrom, Bool.and_eq_true, decide_eq_true_eq] at hrest'
      have hc : c = c' := by
        rcases Nat.lt_trichotomy c c' with hlt | heq' | hlt
        · have := heq c
          rw [Memory.read, if_pos rfl, Memory.read, if_neg (by omega),
            Memory.read_below rest' hrest'.2 (by omega)] at this
          exact absurd this hrest.1.2
        · exact heq'
        · have := heq c'
          rw [Memory.read, if_neg (by omega), Memory.read_below rest hrest.2 (by omega),
            Memory.read, if_pos rfl] at this
          exact absurd this.symm hrest'.1.2
      subst hc
      have hw : w = w' := by simpa [Memory.read] using heq c
      subst hw
      rw [ih rest' hrest.2 hrest'.2]
      intro a
      by_cases ha : a = c
      · subst ha
        rw [Memory.read_below rest hrest.2 (by omega), Memory.read_below rest' hrest'.2 (by omega)]
      · simpa [Memory.read, ha] using heq a

/-- Canonical memories that read alike at every address are equal. -/
theorem Memory.ext_of_read (m m' : Memory) (h : m.wf = true) (h' : m'.wf = true)
    (heq : ∀ a, m.read a = m'.read a) : m = m' := Memory.ext_from m m' h h' heq

/-- Writing back the byte an address holds changes nothing: the dummy write of a read-modify-write (R102). -/
theorem Memory.write_read (m : Memory) (a : Addr) (h : m.wf = true) : m.write a.toNat (m.read a.toNat) = m := by
  refine Memory.ext_of_read _ _ (Memory.write_wf m a _ h) h fun b => ?_
  by_cases hb : b = a.toNat
  · subst hb; exact Memory.read_write_same m _ _ h
  · exact Memory.read_write_other m _ hb

end Sys2Proof.Machine
end

