-- ==== Sys2Proof/Laws/State.lean ====
section
/-! SUPPORT. One lemma per field per update of the state, each true by unfolding, so that no later proof unfolds
a record update. -/

namespace Sys2Proof.Machine

open Sys2Proof

@[simp] theorem State.setA_a (s : State) (v : Byte) : (s.setA v).a = v := rfl
@[simp] theorem State.setA_x (s : State) (v : Byte) : (s.setA v).x = s.x := rfl
@[simp] theorem State.setA_y (s : State) (v : Byte) : (s.setA v).y = s.y := rfl
@[simp] theorem State.setA_sp (s : State) (v : Byte) : (s.setA v).sp = s.sp := rfl
@[simp] theorem State.setA_pc (s : State) (v : Byte) : (s.setA v).pc = s.pc := rfl
@[simp] theorem State.setA_p (s : State) (v : Byte) : (s.setA v).p = s.p := rfl
@[simp] theorem State.setA_e (s : State) (v : Byte) : (s.setA v).e = s.e := rfl
@[simp] theorem State.setA_cycles (s : State) (v : Byte) : (s.setA v).cycles = s.cycles := rfl
@[simp] theorem State.setA_rst (s : State) (v : Byte) : (s.setA v).rst = s.rst := rfl
@[simp] theorem State.setA_params (s : State) (v : Byte) : (s.setA v).params = s.params := rfl
@[simp] theorem State.setA_bus (s : State) (v : Byte) : (s.setA v).bus = s.bus := rfl

@[simp] theorem State.setX_a (s : State) (v : Byte) : (s.setX v).a = s.a := rfl
@[simp] theorem State.setX_x (s : State) (v : Byte) : (s.setX v).x = v := rfl
@[simp] theorem State.setX_y (s : State) (v : Byte) : (s.setX v).y = s.y := rfl
@[simp] theorem State.setX_sp (s : State) (v : Byte) : (s.setX v).sp = s.sp := rfl
@[simp] theorem State.setX_pc (s : State) (v : Byte) : (s.setX v).pc = s.pc := rfl
@[simp] theorem State.setX_p (s : State) (v : Byte) : (s.setX v).p = s.p := rfl
@[simp] theorem State.setX_e (s : State) (v : Byte) : (s.setX v).e = s.e := rfl
@[simp] theorem State.setX_cycles (s : State) (v : Byte) : (s.setX v).cycles = s.cycles := rfl
@[simp] theorem State.setX_rst (s : State) (v : Byte) : (s.setX v).rst = s.rst := rfl
@[simp] theorem State.setX_params (s : State) (v : Byte) : (s.setX v).params = s.params := rfl
@[simp] theorem State.setX_bus (s : State) (v : Byte) : (s.setX v).bus = s.bus := rfl

@[simp] theorem State.setY_a (s : State) (v : Byte) : (s.setY v).a = s.a := rfl
@[simp] theorem State.setY_x (s : State) (v : Byte) : (s.setY v).x = s.x := rfl
@[simp] theorem State.setY_y (s : State) (v : Byte) : (s.setY v).y = v := rfl
@[simp] theorem State.setY_sp (s : State) (v : Byte) : (s.setY v).sp = s.sp := rfl
@[simp] theorem State.setY_pc (s : State) (v : Byte) : (s.setY v).pc = s.pc := rfl
@[simp] theorem State.setY_p (s : State) (v : Byte) : (s.setY v).p = s.p := rfl
@[simp] theorem State.setY_e (s : State) (v : Byte) : (s.setY v).e = s.e := rfl
@[simp] theorem State.setY_cycles (s : State) (v : Byte) : (s.setY v).cycles = s.cycles := rfl
@[simp] theorem State.setY_rst (s : State) (v : Byte) : (s.setY v).rst = s.rst := rfl
@[simp] theorem State.setY_params (s : State) (v : Byte) : (s.setY v).params = s.params := rfl
@[simp] theorem State.setY_bus (s : State) (v : Byte) : (s.setY v).bus = s.bus := rfl

@[simp] theorem State.setSp_a (s : State) (v : Byte) : (s.setSp v).a = s.a := rfl
@[simp] theorem State.setSp_x (s : State) (v : Byte) : (s.setSp v).x = s.x := rfl
@[simp] theorem State.setSp_y (s : State) (v : Byte) : (s.setSp v).y = s.y := rfl
@[simp] theorem State.setSp_sp (s : State) (v : Byte) : (s.setSp v).sp = v := rfl
@[simp] theorem State.setSp_pc (s : State) (v : Byte) : (s.setSp v).pc = s.pc := rfl
@[simp] theorem State.setSp_p (s : State) (v : Byte) : (s.setSp v).p = s.p := rfl
@[simp] theorem State.setSp_e (s : State) (v : Byte) : (s.setSp v).e = s.e := rfl
@[simp] theorem State.setSp_cycles (s : State) (v : Byte) : (s.setSp v).cycles = s.cycles := rfl
@[simp] theorem State.setSp_rst (s : State) (v : Byte) : (s.setSp v).rst = s.rst := rfl
@[simp] theorem State.setSp_params (s : State) (v : Byte) : (s.setSp v).params = s.params := rfl
@[simp] theorem State.setSp_bus (s : State) (v : Byte) : (s.setSp v).bus = s.bus := rfl

@[simp] theorem State.setPc_a (s : State) (v : Addr) : (s.setPc v).a = s.a := rfl
@[simp] theorem State.setPc_x (s : State) (v : Addr) : (s.setPc v).x = s.x := rfl
@[simp] theorem State.setPc_y (s : State) (v : Addr) : (s.setPc v).y = s.y := rfl
@[simp] theorem State.setPc_sp (s : State) (v : Addr) : (s.setPc v).sp = s.sp := rfl
@[simp] theorem State.setPc_pc (s : State) (v : Addr) : (s.setPc v).pc = v := rfl
@[simp] theorem State.setPc_p (s : State) (v : Addr) : (s.setPc v).p = s.p := rfl
@[simp] theorem State.setPc_e (s : State) (v : Addr) : (s.setPc v).e = s.e := rfl
@[simp] theorem State.setPc_cycles (s : State) (v : Addr) : (s.setPc v).cycles = s.cycles := rfl
@[simp] theorem State.setPc_rst (s : State) (v : Addr) : (s.setPc v).rst = s.rst := rfl
@[simp] theorem State.setPc_params (s : State) (v : Addr) : (s.setPc v).params = s.params := rfl
@[simp] theorem State.setPc_bus (s : State) (v : Addr) : (s.setPc v).bus = s.bus := rfl

@[simp] theorem State.setP_a (s : State) (f : Flags) : (s.setP f).a = s.a := rfl
@[simp] theorem State.setP_x (s : State) (f : Flags) : (s.setP f).x = s.x := rfl
@[simp] theorem State.setP_y (s : State) (f : Flags) : (s.setP f).y = s.y := rfl
@[simp] theorem State.setP_sp (s : State) (f : Flags) : (s.setP f).sp = s.sp := rfl
@[simp] theorem State.setP_pc (s : State) (f : Flags) : (s.setP f).pc = s.pc := rfl
@[simp] theorem State.setP_p (s : State) (f : Flags) : (s.setP f).p = f := rfl
@[simp] theorem State.setP_e (s : State) (f : Flags) : (s.setP f).e = s.e := rfl
@[simp] theorem State.setP_cycles (s : State) (f : Flags) : (s.setP f).cycles = s.cycles := rfl
@[simp] theorem State.setP_rst (s : State) (f : Flags) : (s.setP f).rst = s.rst := rfl
@[simp] theorem State.setP_params (s : State) (f : Flags) : (s.setP f).params = s.params := rfl
@[simp] theorem State.setP_bus (s : State) (f : Flags) : (s.setP f).bus = s.bus := rfl

@[simp] theorem State.setE_a (s : State) (e : Executor) : (s.setE e).a = s.a := rfl
@[simp] theorem State.setE_x (s : State) (e : Executor) : (s.setE e).x = s.x := rfl
@[simp] theorem State.setE_y (s : State) (e : Executor) : (s.setE e).y = s.y := rfl
@[simp] theorem State.setE_sp (s : State) (e : Executor) : (s.setE e).sp = s.sp := rfl
@[simp] theorem State.setE_pc (s : State) (e : Executor) : (s.setE e).pc = s.pc := rfl
@[simp] theorem State.setE_p (s : State) (e : Executor) : (s.setE e).p = s.p := rfl
@[simp] theorem State.setE_e (s : State) (e : Executor) : (s.setE e).e = e := rfl
@[simp] theorem State.setE_cycles (s : State) (e : Executor) : (s.setE e).cycles = s.cycles := rfl
@[simp] theorem State.setE_rst (s : State) (e : Executor) : (s.setE e).rst = s.rst := rfl
@[simp] theorem State.setE_params (s : State) (e : Executor) : (s.setE e).params = s.params := rfl
@[simp] theorem State.setE_bus (s : State) (e : Executor) : (s.setE e).bus = s.bus := rfl

@[simp] theorem State.setMem_a (s : State) (m : Memory) : (s.setMem m).a = s.a := rfl
@[simp] theorem State.setMem_x (s : State) (m : Memory) : (s.setMem m).x = s.x := rfl
@[simp] theorem State.setMem_y (s : State) (m : Memory) : (s.setMem m).y = s.y := rfl
@[simp] theorem State.setMem_sp (s : State) (m : Memory) : (s.setMem m).sp = s.sp := rfl
@[simp] theorem State.setMem_pc (s : State) (m : Memory) : (s.setMem m).pc = s.pc := rfl
@[simp] theorem State.setMem_p (s : State) (m : Memory) : (s.setMem m).p = s.p := rfl
@[simp] theorem State.setMem_e (s : State) (m : Memory) : (s.setMem m).e = s.e := rfl
@[simp] theorem State.setMem_cycles (s : State) (m : Memory) : (s.setMem m).cycles = s.cycles := rfl
@[simp] theorem State.setMem_rst (s : State) (m : Memory) : (s.setMem m).rst = s.rst := rfl
@[simp] theorem State.setMem_params (s : State) (m : Memory) : (s.setMem m).params = s.params := rfl
@[simp] theorem State.setMem_bus (s : State) (m : Memory) : (s.setMem m).bus = { s.bus with mem := m } := rfl

@[simp] theorem State.tick_a (s : State) (c : BusCycle) : (s.tick c).a = s.a := rfl
@[simp] theorem State.tick_x (s : State) (c : BusCycle) : (s.tick c).x = s.x := rfl
@[simp] theorem State.tick_y (s : State) (c : BusCycle) : (s.tick c).y = s.y := rfl
@[simp] theorem State.tick_sp (s : State) (c : BusCycle) : (s.tick c).sp = s.sp := rfl
@[simp] theorem State.tick_pc (s : State) (c : BusCycle) : (s.tick c).pc = s.pc := rfl
@[simp] theorem State.tick_p (s : State) (c : BusCycle) : (s.tick c).p = s.p := rfl
@[simp] theorem State.tick_e (s : State) (c : BusCycle) : (s.tick c).e = s.e := rfl
@[simp] theorem State.tick_cycles (s : State) (c : BusCycle) : (s.tick c).cycles = s.cycles + 1 := rfl
@[simp] theorem State.tick_rst (s : State) (c : BusCycle) : (s.tick c).rst = s.rst := rfl
@[simp] theorem State.tick_params (s : State) (c : BusCycle) : (s.tick c).params = s.params := rfl
@[simp] theorem State.tick_bus (s : State) (c : BusCycle) : (s.tick c).bus = { s.bus with log := c :: s.bus.log } := rfl

@[simp] theorem State.complete_a (s : State) : (s.complete).a = s.a := rfl
@[simp] theorem State.complete_x (s : State) : (s.complete).x = s.x := rfl
@[simp] theorem State.complete_y (s : State) : (s.complete).y = s.y := rfl
@[simp] theorem State.complete_sp (s : State) : (s.complete).sp = s.sp := rfl
@[simp] theorem State.complete_pc (s : State) : (s.complete).pc = s.pc := rfl
@[simp] theorem State.complete_p (s : State) : (s.complete).p = s.p := rfl
@[simp] theorem State.complete_e (s : State) : (s.complete).e = .fetchOpcode := rfl
@[simp] theorem State.complete_cycles (s : State) : (s.complete).cycles = s.cycles := rfl
@[simp] theorem State.complete_rst (s : State) : (s.complete).rst = s.rst := rfl
@[simp] theorem State.complete_params (s : State) : (s.complete).params = s.params := rfl
@[simp] theorem State.complete_bus (s : State) : (s.complete).bus = s.bus := rfl

@[simp] theorem takeFatal_a (r : DoneReason) (s : State) : (takeFatal r s).a = s.a := rfl
@[simp] theorem takeFatal_x (r : DoneReason) (s : State) : (takeFatal r s).x = s.x := rfl
@[simp] theorem takeFatal_y (r : DoneReason) (s : State) : (takeFatal r s).y = s.y := rfl
@[simp] theorem takeFatal_sp (r : DoneReason) (s : State) : (takeFatal r s).sp = s.sp := rfl
@[simp] theorem takeFatal_pc (r : DoneReason) (s : State) : (takeFatal r s).pc = s.pc := rfl
@[simp] theorem takeFatal_p (r : DoneReason) (s : State) : (takeFatal r s).p = s.p := rfl
@[simp] theorem takeFatal_e (r : DoneReason) (s : State) : (takeFatal r s).e = .done r := rfl
@[simp] theorem takeFatal_cycles (r : DoneReason) (s : State) : (takeFatal r s).cycles = s.cycles := rfl
@[simp] theorem takeFatal_rst (r : DoneReason) (s : State) : (takeFatal r s).rst = s.rst := rfl
@[simp] theorem takeFatal_params (r : DoneReason) (s : State) : (takeFatal r s).params = s.params := rfl
@[simp] theorem takeFatal_bus (r : DoneReason) (s : State) : (takeFatal r s).bus = s.bus := rfl

@[simp] theorem State.assertReset_a (s : State) : s.assertReset.a = s.params.resetA := rfl
@[simp] theorem State.assertReset_x (s : State) : s.assertReset.x = s.params.resetX := rfl
@[simp] theorem State.assertReset_y (s : State) : s.assertReset.y = s.params.resetY := rfl
@[simp] theorem State.assertReset_sp (s : State) : s.assertReset.sp = s.params.resetSp := rfl
@[simp] theorem State.assertReset_pc (s : State) : s.assertReset.pc = s.params.startPc := rfl
@[simp] theorem State.assertReset_p (s : State) : s.assertReset.p = s.params.resetFlags := rfl
@[simp] theorem State.assertReset_e (s : State) : s.assertReset.e = .fetchOpcode := rfl
@[simp] theorem State.assertReset_cycles (s : State) : s.assertReset.cycles = 0 := rfl
@[simp] theorem State.assertReset_rst (s : State) : s.assertReset.rst = false := rfl
@[simp] theorem State.assertReset_params (s : State) : s.assertReset.params = s.params := rfl
@[simp] theorem State.assertReset_bus (s : State) : s.assertReset.bus = s.bus := rfl

/-- The reset state is the one an asserted reset gives, with its own parameters and bus (R252). -/
theorem State.reset_assertReset : State.reset.assertReset = State.reset := rfl

end Sys2Proof.Machine
end

