-- ==== Sys2Proof/Laws/Flow.lean ====
section
/-! SUPPORT. What each shared operation can do, said once: sequences of cycles, the bus accesses, the stack primitives
and the address decoder. -/

namespace Sys2Proof.Machine

open Sys2Proof

/-! ## Sequences -/

@[simp] theorem Flow.bind_ok {α β : Type} (v : α) (s : State) (k : α → State → Flow β) :
    (Flow.ok v s).bind k = k v s := rfl

@[simp] theorem Flow.bind_stopped {α β : Type} (s : State) (k : α → State → Flow β) :
    (Flow.stopped s : Flow α).bind k = .stopped s := rfl

@[simp] theorem Flow.answer_ok (s : State) : (Flow.ok () s).answer = .next s.complete := rfl

@[simp] theorem Flow.answer_stopped (s : State) : (Flow.stopped s : Flow Unit).answer = .next s := rfl

/-- A part of a sequence meets a pair of postconditions: `P` when it goes on, `Q` when an access failed. -/
def Flow.Meets {α : Type} (f : Flow α) (P : α → State → Prop) (Q : State → Prop) : Prop :=
  match f with
  | .ok v s => P v s
  | .stopped s => Q s

theorem Flow.Meets.ok {α : Type} {P : α → State → Prop} {Q : State → Prop} {v : α} {s : State}
    (h : P v s) : (Flow.ok v s).Meets P Q := h

theorem Flow.Meets.bind {α β : Type} {f : Flow α} {k : α → State → Flow β} {P : α → State → Prop}
    {P' : β → State → Prop} {Q : State → Prop} (hf : f.Meets P Q) (hk : ∀ v s, P v s → (k v s).Meets P' Q) :
    (f.bind k).Meets P' Q := by
  cases f with
  | ok v s => exact hk v s hf
  | stopped s => exact hf

theorem Flow.Meets.weaken {α : Type} {f : Flow α} {P P' : α → State → Prop} {Q Q' : State → Prop}
    (hf : f.Meets P Q) (hP : ∀ v s, P v s → P' v s) (hQ : ∀ s, Q s → Q' s) : f.Meets P' Q' := by
  cases f with
  | ok v s => exact hP v s hf
  | stopped s => exact hQ s hf

/-- A sequence always answers a next state, from what its parts meet. -/
theorem Flow.Meets.answer {f : Flow Unit} {P : Unit → State → Prop} {Q R : State → Prop} (hf : f.Meets P Q)
    (hP : ∀ s, P () s → R s.complete) (hQ : ∀ s, Q s → R s) : ∃ t, f.answer = .next t ∧ R t := by
  cases f with
  | ok v s => exact ⟨s.complete, rfl, hP s hf⟩
  | stopped s => exact ⟨s, rfl, hQ s hf⟩

/-! ## Bus accesses that plain memory grants -/

theorem Bus.readAnswer_of_canRead {b : Bus} {a : Addr} (h : b.canRead a = true) :
    b.readAnswer a = some (b.peek a) := by
  unfold Bus.canRead at h
  unfold Bus.readAnswer
  split at h <;> simp_all

theorem Bus.writeAnswer_of_canWrite {b : Bus} {a : Addr} (v : Byte) (h : b.canWrite a = true) :
    b.writeAnswer a v = some (b.mem.write a.toNat v) := by
  unfold Bus.canWrite at h
  unfold Bus.writeAnswer
  split at h <;> simp_all

theorem busRead_of_canRead {a : Addr} {s : State} (h : s.bus.canRead a = true) :
    busRead a s = .ok (s.byteAt a) (s.tick (.read a (s.byteAt a))) := by
  simp [busRead, Bus.readAnswer_of_canRead h, State.byteAt]

theorem busWrite_of_canWrite {a : Addr} {s : State} (v : Byte) (h : s.bus.canWrite a = true) :
    busWrite a v s = .ok () ((s.tick (.write a v)).setMem (s.bus.mem.write a.toNat v)) := by
  simp [busWrite, Bus.writeAnswer_of_canWrite v h]

theorem dummyRead_of_canRead {a : Addr} {s : State} (hp : s.params.internalAccess = .nmosDummyRead)
    (h : s.bus.canRead a = true) : dummyRead a s = .ok () (s.tick (.read a (s.byteAt a))) := by
  simp [dummyRead, hp, busRead_of_canRead h]

theorem dummyRead_noAccess {a : Addr} {s : State} (hp : s.params.internalAccess = .noAccess) :
    dummyRead a s = .ok () (s.tick .idle) := by
  simp [dummyRead, hp]

/-! ## What reads and writes see after each other -/

@[simp] theorem State.byteAt_tick (s : State) (c : BusCycle) (a : Addr) : (s.tick c).byteAt a = s.byteAt a := rfl
@[simp] theorem State.byteAt_setA (s : State) (v : Byte) (a : Addr) : (s.setA v).byteAt a = s.byteAt a := rfl
@[simp] theorem State.byteAt_setX (s : State) (v : Byte) (a : Addr) : (s.setX v).byteAt a = s.byteAt a := rfl
@[simp] theorem State.byteAt_setY (s : State) (v : Byte) (a : Addr) : (s.setY v).byteAt a = s.byteAt a := rfl
@[simp] theorem State.byteAt_setSp (s : State) (v : Byte) (a : Addr) : (s.setSp v).byteAt a = s.byteAt a := rfl
@[simp] theorem State.byteAt_setPc (s : State) (v a : Addr) : (s.setPc v).byteAt a = s.byteAt a := rfl
@[simp] theorem State.byteAt_setP (s : State) (f : Flags) (a : Addr) : (s.setP f).byteAt a = s.byteAt a := rfl
@[simp] theorem State.byteAt_setE (s : State) (e : Executor) (a : Addr) : (s.setE e).byteAt a = s.byteAt a := rfl
@[simp] theorem State.byteAt_complete (s : State) (a : Addr) : s.complete.byteAt a = s.byteAt a := rfl
@[simp] theorem State.byteAt_takeFatal (r : DoneReason) (s : State) (a : Addr) :
    (takeFatal r s).byteAt a = s.byteAt a := rfl

theorem State.byteAt_setMem_write_other (s : State) {a b : Addr} (v : Byte) (h : b ≠ a) :
    (s.setMem (s.bus.mem.write a.toNat v)).byteAt b = s.byteAt b :=
  Memory.read_write_other _ v fun hn => h (BitVec.eq_of_toNat_eq hn)

theorem State.byteAt_setMem_write_same (s : State) (a : Addr) (v : Byte) (h : s.bus.mem.wf = true) :
    (s.setMem (s.bus.mem.write a.toNat v)).byteAt a = v := Memory.read_write_same _ _ v h

/-! ## Everything an access can do -/

/-- What every part of an instruction keeps: the parameters, the reset input and the windows; the collaborator's
history grows by exactly the counted cycles (R83); a canonical memory stays canonical. -/
structure Ran (s t : State) : Prop where
  params : t.params = s.params
  rst : t.rst = s.rst
  regions : t.bus.regions = s.bus.regions
  counted : ∃ l, t.bus.log = l ++ s.bus.log ∧ t.cycles = s.cycles + l.length
  wf : s.bus.mem.wf = true → t.bus.mem.wf = true

theorem Ran.refl (s : State) : Ran s s := ⟨rfl, rfl, rfl, ⟨[], rfl, rfl⟩, id⟩

theorem Ran.trans {s t u : State} (h : Ran s t) (h' : Ran t u) : Ran s u := by
  obtain ⟨l, hl, hc⟩ := h.counted
  obtain ⟨l', hl', hc'⟩ := h'.counted
  refine ⟨h'.params.trans h.params, h'.rst.trans h.rst, h'.regions.trans h.regions, ⟨l' ++ l, ?_, ?_⟩,
    h'.wf ∘ h.wf⟩
  · rw [hl', hl, List.append_assoc]
  · rw [hc', hc, List.length_append]; omega

theorem Ran.tick (s : State) (c : BusCycle) : Ran s (s.tick c) := ⟨rfl, rfl, rfl, ⟨[c], rfl, rfl⟩, id⟩

/-- An access failed (R232, R233): the executor is in `Done(BusFault)`, and the bus has seen that access last. -/
def FailedAccess (t : State) : Prop :=
  (∃ a, t.e = .done (.busFault .read a) ∧ t.bus.log.head? = some (.readFailed a)) ∨
  ∃ a v, t.e = .done (.busFault .write a) ∧ t.bus.log.head? = some (.writeFailed a v)

/-- A bus read changes nothing but the executor, the counter and the history (R41, R43, R233). -/
theorem busRead_meets (a : Addr) (s : State) :
    (busRead a s).Meets (fun v t => s.bus.readAnswer a = some v ∧ t = s.tick (.read a v))
      (fun t => s.bus.readAnswer a = none ∧ t = takeFatal (.busFault .read a) (s.tick (.readFailed a))) := by
  unfold busRead
  split <;> simp_all [Flow.Meets]

/-- A bus write changes plain memory at its address at most, and nothing of it if it fails (R42, R43). -/
theorem busWrite_meets (a : Addr) (v : Byte) (s : State) :
    (busWrite a v s).Meets
      (fun _ t => ∃ m, s.bus.writeAnswer a v = some m ∧ t = (s.tick (.write a v)).setMem m)
      (fun t => s.bus.writeAnswer a v = none ∧ t = takeFatal (.busFault .write a) (s.tick (.writeFailed a v))) := by
  unfold busWrite
  split <;> simp_all [Flow.Meets]

theorem Bus.writeAnswer_eq {b : Bus} {a : Addr} {v : Byte} {m : Memory} (h : b.writeAnswer a v = some m) :
    m = b.mem.write a.toNat v ∨ m = b.mem := by
  unfold Bus.writeAnswer at h
  split at h <;> (try split at h) <;> simp_all

theorem Bus.writeAnswer_read_other {b : Bus} {a c : Addr} {v : Byte} {m : Memory}
    (h : b.writeAnswer a v = some m) (hc : c ≠ a) : m.read c.toNat = b.peek c := by
  rcases Bus.writeAnswer_eq h with rfl | rfl
  · exact Memory.read_write_other _ v fun hn => hc (BitVec.eq_of_toNat_eq hn)
  · rfl

/-- A dummy access elapses one cycle and changes nothing else (R99). -/
theorem dummyRead_meets (a : Addr) (s : State) :
    (dummyRead a s).Meets (fun _ t => ∃ c, t = s.tick c)
      (fun t => t = takeFatal (.busFault .read a) (s.tick (.readFailed a))) := by
  unfold dummyRead
  split
  · refine Flow.Meets.bind ((busRead_meets a s).weaken (fun _ _ h => h) fun _ h => h.2) fun v t h => ?_
    exact Flow.Meets.ok ⟨_, h.2⟩
  · exact ⟨_, rfl⟩

end Sys2Proof.Machine
end

