-- ==== Sys2Proof/Laws/Cycles.lean ====
section
/-! SUPPORT. What each shared operation and each sequence does when plain memory grants its accesses, and what each
shared operation does when it fails them: the cycles it shows and the state it leaves. -/

namespace Sys2Proof.Machine

open Sys2Proof

/-! ## The state after cycles -/

@[simp] theorem State.after_nil (s : State) : s.after [] = s := rfl

theorem State.tick_eq_after (s : State) (c : BusCycle) : s.tick c = s.after [c] := rfl

@[simp] theorem State.after_after (s : State) (cs ds : List BusCycle) :
    (s.after cs).after ds = s.after (cs ++ ds) := by
  simp [State.after, Nat.add_assoc]

@[simp] theorem State.after_a (s : State) (cs : List BusCycle) : (s.after cs).a = s.a := rfl
@[simp] theorem State.after_x (s : State) (cs : List BusCycle) : (s.after cs).x = s.x := rfl
@[simp] theorem State.after_y (s : State) (cs : List BusCycle) : (s.after cs).y = s.y := rfl
@[simp] theorem State.after_sp (s : State) (cs : List BusCycle) : (s.after cs).sp = s.sp := rfl
@[simp] theorem State.after_pc (s : State) (cs : List BusCycle) : (s.after cs).pc = s.pc := rfl
@[simp] theorem State.after_p (s : State) (cs : List BusCycle) : (s.after cs).p = s.p := rfl
@[simp] theorem State.after_e (s : State) (cs : List BusCycle) : (s.after cs).e = s.e := rfl
@[simp] theorem State.after_rst (s : State) (cs : List BusCycle) : (s.after cs).rst = s.rst := rfl
@[simp] theorem State.after_params (s : State) (cs : List BusCycle) : (s.after cs).params = s.params := rfl
@[simp] theorem State.after_cycles (s : State) (cs : List BusCycle) : (s.after cs).cycles = s.cycles + cs.length := rfl
@[simp] theorem State.after_mem (s : State) (cs : List BusCycle) : (s.after cs).bus.mem = s.bus.mem := rfl
@[simp] theorem State.after_regions (s : State) (cs : List BusCycle) : (s.after cs).bus.regions = s.bus.regions := rfl
@[simp] theorem State.after_log (s : State) (cs : List BusCycle) : (s.after cs).bus.log = cs.reverse ++ s.bus.log := rfl
@[simp] theorem State.byteAt_after (s : State) (cs : List BusCycle) (a : Addr) :
    (s.after cs).byteAt a = s.byteAt a := rfl

/-! Cycles move inside the updates, so that a state reads as updates of the state after all its cycles. -/

@[simp] theorem State.after_setA (s : State) (v : Byte) (cs : List BusCycle) :
    (s.setA v).after cs = (s.after cs).setA v := rfl
@[simp] theorem State.after_setSp (s : State) (v : Byte) (cs : List BusCycle) :
    (s.setSp v).after cs = (s.after cs).setSp v := rfl
@[simp] theorem State.after_setPc (s : State) (v : Addr) (cs : List BusCycle) :
    (s.setPc v).after cs = (s.after cs).setPc v := rfl
@[simp] theorem State.after_setP (s : State) (f : Flags) (cs : List BusCycle) :
    (s.setP f).after cs = (s.after cs).setP f := rfl
@[simp] theorem State.after_setMem (s : State) (m : Memory) (cs : List BusCycle) :
    (s.setMem m).after cs = (s.after cs).setMem m := rfl
@[simp] theorem State.setSp_setSp (s : State) (v w : Byte) : (s.setSp v).setSp w = s.setSp w := rfl
@[simp] theorem State.setPc_setPc (s : State) (v w : Addr) : (s.setPc v).setPc w = s.setPc w := rfl
@[simp] theorem State.setMem_setMem (s : State) (m m' : Memory) : (s.setMem m).setMem m' = s.setMem m' := rfl
@[simp] theorem State.setMem_setSp (s : State) (m : Memory) (v : Byte) :
    (s.setSp v).setMem m = (s.setMem m).setSp v := rfl

/-! ## Grants depend on the windows alone -/

theorem Bus.grants_of_regions {b b' : Bus} (h : b.regions = b'.regions) (c : BusCycle) : b.grants c = b'.grants c := by
  cases c <;> simp [Bus.grants, Bus.canRead, Bus.canWrite, Bus.kindAt, h]

@[simp] theorem State.grants_after (s : State) (cs : List BusCycle) (c : BusCycle) :
    (s.after cs).bus.grants c = s.bus.grants c := Bus.grants_of_regions rfl c

@[simp] theorem State.grants_setMem (s : State) (m : Memory) (c : BusCycle) :
    (s.setMem m).bus.grants c = s.bus.grants c := Bus.grants_of_regions rfl c

@[simp] theorem State.dummyCycle_after (s : State) (cs : List BusCycle) (a : Addr) :
    (s.after cs).dummyCycle a = s.dummyCycle a := rfl
@[simp] theorem State.dummyCycle_setSp (s : State) (v : Byte) (a : Addr) :
    (s.setSp v).dummyCycle a = s.dummyCycle a := rfl
@[simp] theorem State.dummyCycle_setPc (s : State) (v a : Addr) : (s.setPc v).dummyCycle a = s.dummyCycle a := rfl
@[simp] theorem State.readCycleAt_after (s : State) (cs : List BusCycle) (a : Addr) :
    (s.after cs).readCycleAt a = s.readCycleAt a := rfl
@[simp] theorem State.readCycleAt_setSp (s : State) (v : Byte) (a : Addr) :
    (s.setSp v).readCycleAt a = s.readCycleAt a := rfl
@[simp] theorem State.readCycleAt_setP (s : State) (f : Flags) (a : Addr) :
    (s.setP f).readCycleAt a = s.readCycleAt a := rfl

theorem State.grantsAll_nil (s : State) : s.grantsAll [] := fun _ h => absurd h List.not_mem_nil

theorem State.grantsAll_cons {s : State} {c : BusCycle} {cs : List BusCycle} :
    s.grantsAll (c :: cs) ↔ s.bus.grants c = true ∧ s.grantsAll cs := by simp [State.grantsAll]

theorem State.grantsAll_append {s : State} {cs ds : List BusCycle} :
    s.grantsAll (cs ++ ds) ↔ s.grantsAll cs ∧ s.grantsAll ds := by
  simp [State.grantsAll, or_imp, forall_and]

/-! ## The shared operations, granted -/

theorem busRead_granted {s : State} {a : Addr} (h : s.bus.grants (s.readCycleAt a) = true) :
    busRead a s = .ok (s.byteAt a) (s.after [s.readCycleAt a]) := busRead_of_canRead h

theorem busWrite_granted {s : State} {a : Addr} {v : Byte} (h : s.bus.grants (.write a v) = true) :
    busWrite a v s = .ok () ((s.after [.write a v]).setMem (s.bus.mem.write a.toNat v)) := busWrite_of_canWrite v h

theorem dummyRead_granted {s : State} {a : Addr} (h : s.bus.grants (s.dummyCycle a) = true) :
    dummyRead a s = .ok () (s.after [s.dummyCycle a]) := by
  unfold State.dummyCycle at *
  cases hp : s.params.internalAccess
  · simp only [hp] at h ⊢
    exact dummyRead_of_canRead hp h
  · exact dummyRead_noAccess hp

theorem push_granted {s : State} {v : Byte} (h : s.bus.grants (.write (stackAddr s.sp) v) = true) :
    push v s = .ok () (((s.after [.write (stackAddr s.sp) v]).setMem
      (s.bus.mem.write (stackAddr s.sp).toNat v)).setSp (s.sp - 1#8)) := by
  unfold push
  rw [busWrite_granted h]
  rfl

theorem pull_granted {s : State} (h : s.bus.grants (s.readCycleAt (stackAddr (s.sp + 1#8))) = true) :
    pull s = .ok (s.byteAt (stackAddr (s.sp + 1#8)))
      ((s.after [s.readCycleAt (stackAddr (s.sp + 1#8))]).setSp (s.sp + 1#8)) := by
  unfold pull
  rw [busRead_granted h]
  rfl

theorem readPointer_granted {s : State} {z : Byte}
    (h : s.grantsAll [s.readCycleAt (zext16 z), s.readCycleAt (pointerHigh z)]) :
    readPointer z s =
      .ok (peekPointer z s) (s.after [s.readCycleAt (zext16 z), s.readCycleAt (pointerHigh z)]) := by
  simp only [State.grantsAll_cons] at h
  unfold readPointer
  rw [busRead_granted h.1, Flow.bind_ok, busRead_granted (by simpa using h.2.1), Flow.bind_ok, State.after_after]
  rfl

theorem indexBase_granted {s : State} {always : Bool} {base : Addr} {idx : Byte}
    (h : s.grantsAll (fixupCycles always base idx s)) :
    indexBase always base idx s = .ok (indexedAddr base idx) (s.after (fixupCycles always base idx s)) := by
  unfold indexBase fixupCycles at *
  split
  · next hc =>
    simp only [hc, if_true, State.grantsAll_cons] at h
    rw [busRead_granted h.1]
    rfl
  · rfl

/-- The address decoder, granted: a mode shows its cycles and gives the effective address of R87. -/
theorem MemOperand.resolve_granted {always : Bool} {o : MemOperand} {s : State}
    (h : s.grantsAll (o.addressCycles always s)) :
    o.resolve always s = .ok (o.effectiveAddress s) (s.after (o.addressCycles always s)) := by
  cases o <;> simp only [MemOperand.resolve, MemOperand.addressCycles, MemOperand.effectiveAddress] at *
  case zp => rfl
  case abs => rfl
  case zpX => rw [dummyRead_granted (State.grantsAll_cons.1 h).1]; rfl
  case zpY => rw [dummyRead_granted (State.grantsAll_cons.1 h).1]; rfl
  case absX => exact indexBase_granted h
  case absY => exact indexBase_granted h
  case indX =>
    have h' := State.grantsAll_cons.1 h
    rw [dummyRead_granted h'.1, Flow.bind_ok]
    exact (readPointer_granted (s := s.after [_]) h'.2).trans (by rw [State.after_after]; rfl)
  case indY =>
    have h' := State.grantsAll_append.1 h
    rw [readPointer_granted h'.1, Flow.bind_ok]
    exact (indexBase_granted (s := s.after _) h'.2).trans (by rw [State.after_after]; rfl)

/-! ## The shared operations, denied -/

theorem Bus.denies_of_regions {b b' : Bus} (h : b.regions = b'.regions) (c : BusCycle) : b.denies c = b'.denies c := by
  cases c <;> simp [Bus.denies, Bus.kindAt, h]

/-- Plain memory fails an access whatever its byte. -/
theorem Bus.denies_read (b : Bus) (a : Addr) (v w : Byte) : b.denies (.read a v) = b.denies (.read a w) := rfl
theorem Bus.denies_write (b : Bus) (a : Addr) (v w : Byte) : b.denies (.write a v) = b.denies (.write a w) := rfl

@[simp] theorem State.denies_after (s : State) (cs : List BusCycle) (c : BusCycle) :
    (s.after cs).bus.denies c = s.bus.denies c := Bus.denies_of_regions rfl c

@[simp] theorem State.denies_setMem (s : State) (m : Memory) (c : BusCycle) :
    (s.setMem m).bus.denies c = s.bus.denies c := Bus.denies_of_regions rfl c

theorem Bus.readAnswer_of_denies {b : Bus} {a : Addr} {v : Byte} (h : b.denies (.read a v) = true) :
    b.readAnswer a = none := by
  unfold Bus.denies at h
  unfold Bus.readAnswer
  split <;> simp_all

theorem Bus.writeAnswer_of_denies {b : Bus} {a : Addr} {v : Byte} (h : b.denies (.write a v) = true) :
    b.writeAnswer a v = none := by
  unfold Bus.denies at h
  unfold Bus.writeAnswer
  split <;> simp_all

theorem busRead_denied {s : State} {a : Addr} (h : s.bus.denies (s.readCycleAt a) = true) :
    busRead a s = .stopped (s.failedRead [] a) := by
  simp only [busRead, Bus.readAnswer_of_denies h]
  rfl

theorem busWrite_denied {s : State} {a : Addr} {v : Byte} (h : s.bus.denies (.write a v) = true) :
    busWrite a v s = .stopped (s.failedWrite [] a v) := by
  simp only [busWrite, Bus.writeAnswer_of_denies h]
  rfl

theorem dummyRead_denied {s : State} {a : Addr} (hp : s.params.internalAccess = .nmosDummyRead)
    (h : s.bus.denies (s.readCycleAt a) = true) : dummyRead a s = .stopped (s.failedRead [] a) := by
  simp only [dummyRead, hp, busRead_denied h, Flow.bind_stopped]

theorem fetchByte_denied {s : State} (h : s.bus.denies (s.readCycleAt s.pc) = true) :
    fetchByte s = .stopped (s.failedRead [] s.pc) := by
  simp only [fetchByte, busRead_denied h, Flow.bind_stopped]

/-- A failing push leaves `SP` as it was (R47, R112). -/
theorem push_denied {s : State} {v : Byte} (h : s.bus.denies (.write (stackAddr s.sp) v) = true) :
    push v s = .stopped (s.failedWrite [] (stackAddr s.sp) v) := by
  simp only [push, busWrite_denied h, Flow.bind_stopped]

/-- A failing pull leaves `SP` as it was (R48, R112). -/
theorem pull_denied {s : State} (h : s.bus.denies (s.readCycleAt (stackAddr (s.sp + 1#8))) = true) :
    pull s = .stopped (s.failedRead [] (stackAddr (s.sp + 1#8))) := by
  simp only [pull, busRead_denied h, Flow.bind_stopped]

@[simp] theorem State.failedRead_a (s : State) (cs : List BusCycle) (a : Addr) : (s.failedRead cs a).a = s.a := rfl
@[simp] theorem State.failedRead_x (s : State) (cs : List BusCycle) (a : Addr) : (s.failedRead cs a).x = s.x := rfl
@[simp] theorem State.failedRead_y (s : State) (cs : List BusCycle) (a : Addr) : (s.failedRead cs a).y = s.y := rfl
@[simp] theorem State.failedRead_sp (s : State) (cs : List BusCycle) (a : Addr) : (s.failedRead cs a).sp = s.sp := rfl
@[simp] theorem State.failedRead_pc (s : State) (cs : List BusCycle) (a : Addr) : (s.failedRead cs a).pc = s.pc := rfl
@[simp] theorem State.failedRead_p (s : State) (cs : List BusCycle) (a : Addr) : (s.failedRead cs a).p = s.p := rfl
@[simp] theorem State.failedRead_rst (s : State) (cs : List BusCycle) (a : Addr) : (s.failedRead cs a).rst = s.rst := rfl
@[simp] theorem State.failedRead_params (s : State) (cs : List BusCycle) (a : Addr) : (s.failedRead cs a).params = s.params := rfl
@[simp] theorem State.failedRead_e (s : State) (cs : List BusCycle) (a : Addr) :
    (s.failedRead cs a).e = .done (.busFault .read a) := rfl
@[simp] theorem State.failedRead_mem (s : State) (cs : List BusCycle) (a : Addr) :
    (s.failedRead cs a).bus.mem = s.bus.mem := rfl
@[simp] theorem State.failedRead_regions (s : State) (cs : List BusCycle) (a : Addr) :
    (s.failedRead cs a).bus.regions = s.bus.regions := rfl
@[simp] theorem State.failedRead_log (s : State) (cs : List BusCycle) (a : Addr) :
    (s.failedRead cs a).bus.log = .readFailed a :: (cs.reverse ++ s.bus.log) := by simp [State.failedRead]
@[simp] theorem State.failedRead_cycles (s : State) (cs : List BusCycle) (a : Addr) :
    (s.failedRead cs a).cycles = s.cycles + cs.length + 1 := by simp [State.failedRead, Nat.add_assoc]

@[simp] theorem State.failedWrite_a (s : State) (cs : List BusCycle) (a : Addr) (v : Byte) : (s.failedWrite cs a v).a = s.a := rfl
@[simp] theorem State.failedWrite_x (s : State) (cs : List BusCycle) (a : Addr) (v : Byte) : (s.failedWrite cs a v).x = s.x := rfl
@[simp] theorem State.failedWrite_y (s : State) (cs : List BusCycle) (a : Addr) (v : Byte) : (s.failedWrite cs a v).y = s.y := rfl
@[simp] theorem State.failedWrite_sp (s : State) (cs : List BusCycle) (a : Addr) (v : Byte) : (s.failedWrite cs a v).sp = s.sp := rfl
@[simp] theorem State.failedWrite_pc (s : State) (cs : List BusCycle) (a : Addr) (v : Byte) : (s.failedWrite cs a v).pc = s.pc := rfl
@[simp] theorem State.failedWrite_p (s : State) (cs : List BusCycle) (a : Addr) (v : Byte) : (s.failedWrite cs a v).p = s.p := rfl
@[simp] theorem State.failedWrite_rst (s : State) (cs : List BusCycle) (a : Addr) (v : Byte) : (s.failedWrite cs a v).rst = s.rst := rfl
@[simp] theorem State.failedWrite_params (s : State) (cs : List BusCycle) (a : Addr) (v : Byte) : (s.failedWrite cs a v).params = s.params := rfl
@[simp] theorem State.failedWrite_e (s : State) (cs : List BusCycle) (a : Addr) (v : Byte) :
    (s.failedWrite cs a v).e = .done (.busFault .write a) := rfl
@[simp] theorem State.failedWrite_mem (s : State) (cs : List BusCycle) (a : Addr) (v : Byte) :
    (s.failedWrite cs a v).bus.mem = s.bus.mem := rfl
@[simp] theorem State.failedWrite_regions (s : State) (cs : List BusCycle) (a : Addr) (v : Byte) :
    (s.failedWrite cs a v).bus.regions = s.bus.regions := rfl
@[simp] theorem State.failedWrite_log (s : State) (cs : List BusCycle) (a : Addr) (v : Byte) :
    (s.failedWrite cs a v).bus.log = .writeFailed a v :: (cs.reverse ++ s.bus.log) := by simp [State.failedWrite]
@[simp] theorem State.failedWrite_cycles (s : State) (cs : List BusCycle) (a : Addr) (v : Byte) :
    (s.failedWrite cs a v).cycles = s.cycles + cs.length + 1 := by simp [State.failedWrite, Nat.add_assoc]

@[simp] theorem State.failedRead_after (s : State) (cs ds : List BusCycle) (a : Addr) :
    (s.after cs).failedRead ds a = s.failedRead (cs ++ ds) a := by
  simp [State.failedRead]

@[simp] theorem State.failedWrite_after (s : State) (cs ds : List BusCycle) (a : Addr) (v : Byte) :
    (s.after cs).failedWrite ds a v = s.failedWrite (cs ++ ds) a v := by
  simp [State.failedWrite]

/-! A failed access moves inside the updates, so that a state reads as updates of one that failed after its cycles. -/

@[simp] theorem State.failedRead_setSp (s : State) (v : Byte) (cs : List BusCycle) (a : Addr) :
    (s.setSp v).failedRead cs a = (s.failedRead cs a).setSp v := rfl
@[simp] theorem State.failedRead_setPc (s : State) (v : Addr) (cs : List BusCycle) (a : Addr) :
    (s.setPc v).failedRead cs a = (s.failedRead cs a).setPc v := rfl
@[simp] theorem State.failedRead_setP (s : State) (f : Flags) (cs : List BusCycle) (a : Addr) :
    (s.setP f).failedRead cs a = (s.failedRead cs a).setP f := rfl
@[simp] theorem State.failedRead_setMem (s : State) (m : Memory) (cs : List BusCycle) (a : Addr) :
    (s.setMem m).failedRead cs a = (s.failedRead cs a).setMem m := rfl
@[simp] theorem State.failedWrite_setSp (s : State) (v : Byte) (cs : List BusCycle) (a : Addr) (w : Byte) :
    (s.setSp v).failedWrite cs a w = (s.failedWrite cs a w).setSp v := rfl
@[simp] theorem State.failedWrite_setMem (s : State) (m : Memory) (cs : List BusCycle) (a : Addr) (w : Byte) :
    (s.setMem m).failedWrite cs a w = (s.failedWrite cs a w).setMem m := rfl

/-! ## The sequences, granted -/

theorem impliedOp_granted {op : State → State} {s : State} (h : s.grantsAll [s.dummyCycle s.pc]) :
    impliedOp op s = .next (op (s.after [s.dummyCycle s.pc])).complete := by
  unfold impliedOp
  rw [dummyRead_granted (State.grantsAll_cons.1 h).1]
  rfl

theorem readMem_granted {o : MemOperand} {op : Byte → State → State} {s : State}
    (h : s.grantsAll ((ReadOperand.mem o).cycles s)) :
    readMem o op s =
      .next (op (s.byteAt (o.effectiveAddress s)) (s.after ((ReadOperand.mem o).cycles s))).complete := by
  have h' := State.grantsAll_append.1 h
  unfold readMem
  rw [MemOperand.resolve_granted h'.1, Flow.bind_ok,
    busRead_granted (by simpa using (State.grantsAll_cons.1 h'.2).1), Flow.bind_ok, State.after_after]
  rfl

theorem writeMem_granted {o : MemOperand} {value : State → Byte} {v : Byte} {s : State}
    (hv : value (s.after (o.addressCycles true s)) = v) (h : s.grantsAll (o.storeCycles v s)) :
    writeMem o value s = .next ((s.after (o.storeCycles v s)).setMem
      (s.bus.mem.write (o.effectiveAddress s).toNat v)).complete := by
  have h' := State.grantsAll_append.1 h
  unfold writeMem
  rw [MemOperand.resolve_granted h'.1, Flow.bind_ok, hv,
    busWrite_granted (by simpa using (State.grantsAll_cons.1 h'.2).1), State.after_after]
  rfl

/-- A read-modify-write, granted, on a canonical memory, where the dummy write changes nothing. -/
theorem modifyMem_granted {o : MemOperand} {op : Byte → Flags → Byte × Flags} {s : State} (hw : s.bus.mem.wf = true)
    (h : s.grantsAll (o.modifyCycles (op (s.byteAt (o.effectiveAddress s)) s.p).1 s)) :
    modifyMem o op s = .next ((((s.after (o.modifyCycles (op (s.byteAt (o.effectiveAddress s)) s.p).1 s)).setMem
      (s.bus.mem.write (o.effectiveAddress s).toNat (op (s.byteAt (o.effectiveAddress s)) s.p).1)).setP
        (op (s.byteAt (o.effectiveAddress s)) s.p).2)).complete := by
  have h' := State.grantsAll_append.1 h
  simp only [State.grantsAll_cons] at h'
  unfold modifyMem modifyAt
  rw [MemOperand.resolve_granted h'.1, Flow.bind_ok, busRead_granted (by exact h'.2.1), Flow.bind_ok,
    busWrite_granted (by exact h'.2.2.1), Flow.bind_ok, busWrite_granted (by exact h'.2.2.2.1)]
  simp only [Flow.answer_ok, State.after_after, State.byteAt_after]
  have hsame := Memory.write_read s.bus.mem (o.effectiveAddress s) hw
  simp only [State.after, State.setMem, State.setP, State.complete, State.setE, MemOperand.modifyCycles] at *
  simp [hsame, Nat.add_assoc, State.readCycleAt, State.byteAt, Bus.peek]

end Sys2Proof.Machine
end

