-- ==== Sys2Proof/Laws/Outcomes.lean ====
section
/-! SUPPORT. What each sequence can do on any bus: if it answers a next state, then that state is one of these. Proofs
about a meaning cite its sequence's lemma and unfold nothing. -/

namespace Sys2Proof.Machine

open Sys2Proof

/-! ## What accesses leave alone -/

/-- Between `s` and `t` only bus accesses happened: no register and no flag changed. -/
structure Accessed (s t : State) : Prop extends Ran s t where
  a : t.a = s.a
  x : t.x = s.x
  y : t.y = s.y
  sp : t.sp = s.sp
  pc : t.pc = s.pc
  p : t.p = s.p

/-- Only reads and idle cycles happened: the memory is the same as well. -/
structure ReadsOnly (s t : State) : Prop extends Accessed s t where
  mem : t.bus.mem = s.bus.mem

/-- Only reads happened, and the last of the accesses failed (R112, R232, R233). -/
structure EndedInDone (s t : State) : Prop extends ReadsOnly s t where
  failed : FailedAccess t

theorem ReadsOnly.byteAt {s t : State} (h : ReadsOnly s t) (b : Addr) : t.byteAt b = s.byteAt b := by
  simp [State.byteAt, Bus.peek, h.mem]

theorem ReadsOnly.refl (s : State) : ReadsOnly s s := { Ran.refl s with
  a := rfl
  x := rfl
  y := rfl
  sp := rfl
  pc := rfl
  p := rfl
  mem := rfl }

theorem ReadsOnly.trans {s t u : State} (h : ReadsOnly s t) (h' : ReadsOnly t u) : ReadsOnly s u :=
  { Ran.trans h.toRan h'.toRan with
    a := h'.a.trans h.a
    x := h'.x.trans h.x
    y := h'.y.trans h.y
    sp := h'.sp.trans h.sp
    pc := h'.pc.trans h.pc
    p := h'.p.trans h.p
    mem := h'.mem.trans h.mem }

theorem ReadsOnly.trans_ended {s t u : State} (h : ReadsOnly s t) (h' : EndedInDone t u) : EndedInDone s u :=
  { h.trans h'.toReadsOnly with failed := h'.failed }

theorem ReadsOnly.tick (s : State) (c : BusCycle) : ReadsOnly s (s.tick c) :=
  { Ran.tick s c, ReadsOnly.refl s with }

theorem EndedInDone.of_read (s : State) (a : Addr) :
    EndedInDone s (takeFatal (.busFault .read a) (s.tick (.readFailed a))) :=
  { ReadsOnly.tick s (.readFailed a) with failed := .inl ⟨a, rfl, rfl⟩ }

theorem EndedInDone.of_write (s : State) (a : Addr) (v : Byte) :
    EndedInDone s (takeFatal (.busFault .write a) (s.tick (.writeFailed a v))) :=
  { ReadsOnly.tick s (.writeFailed a v) with failed := .inr ⟨a, v, rfl, rfl⟩ }

/-- A part of a sequence only reads: it goes on with the executor state kept, or it ends in `Done`. -/
def Flow.Reads {α : Type} (f : Flow α) (s : State) : Prop :=
  f.Meets (fun _ t => ReadsOnly s t ∧ t.e = s.e) (EndedInDone s)

theorem Flow.Reads.bind {α β : Type} {f : Flow α} {k : α → State → Flow β} {s : State} (hf : f.Reads s)
    (hk : ∀ v t, (k v t).Reads t) : (f.bind k).Reads s :=
  Flow.Meets.bind hf fun v t h => (hk v t).weaken (fun _ _ h' => ⟨h.1.trans h'.1, h'.2.trans h.2⟩)
    fun _ h' => h.1.trans_ended h'

theorem Flow.Reads.ok {α : Type} (v : α) (s : State) : (Flow.ok v s).Reads s := ⟨ReadsOnly.refl s, rfl⟩

theorem busRead_reads (a : Addr) (s : State) : (busRead a s).Reads s :=
  (busRead_meets a s).weaken (fun _ _ h => h.2 ▸ ⟨ReadsOnly.tick s _, rfl⟩) fun _ h => h.2 ▸ EndedInDone.of_read s a

theorem dummyRead_reads (a : Addr) (s : State) : (dummyRead a s).Reads s :=
  (dummyRead_meets a s).weaken (fun _ _ ⟨_, h⟩ => h ▸ ⟨ReadsOnly.tick s _, rfl⟩)
    fun _ h => h ▸ EndedInDone.of_read s a

theorem readPointer_reads (z : Byte) (s : State) : (readPointer z s).Reads s :=
  (busRead_reads _ s).bind fun _ t => (busRead_reads _ t).bind fun _ t' => Flow.Reads.ok _ t'

theorem indexBase_reads (always : Bool) (base : Addr) (idx : Byte) (s : State) :
    (indexBase always base idx s).Reads s := by
  unfold indexBase
  split
  · exact (busRead_reads _ s).bind fun _ t => Flow.Reads.ok _ t
  · exact Flow.Reads.ok _ s

/-- The address decoder only reads. -/
theorem MemOperand.resolve_reads (always : Bool) (o : MemOperand) (s : State) : (o.resolve always s).Reads s := by
  cases o with
  | zp z => exact Flow.Reads.ok _ s
  | abs a => exact Flow.Reads.ok _ s
  | zpX z => exact (dummyRead_reads _ s).bind fun _ t => Flow.Reads.ok _ t
  | zpY z => exact (dummyRead_reads _ s).bind fun _ t => Flow.Reads.ok _ t
  | absX a => exact indexBase_reads always a _ s
  | absY a => exact indexBase_reads always a _ s
  | indX z => exact (dummyRead_reads _ s).bind fun _ t => readPointer_reads _ t
  | indY z => exact (readPointer_reads z s).bind fun _ t => indexBase_reads always _ _ t

/-! ## Writes -/

/-- Between `s` and `t` memory changed at `ea` at most, and no register and no flag changed. -/
structure WroteAt (ea : Addr) (s t : State) : Prop extends Accessed s t where
  others : ∀ b : Addr, b ≠ ea → t.byteAt b = s.byteAt b

theorem ReadsOnly.wroteAt {s t : State} (a : Addr) (h : ReadsOnly s t) : WroteAt a s t :=
  { h.toAccessed with others := fun b _ => h.byteAt b }

theorem WroteAt.trans {a : Addr} {s t u : State} (h : WroteAt a s t) (h' : WroteAt a t u) : WroteAt a s u :=
  { Ran.trans h.toRan h'.toRan with
    a := h'.a.trans h.a
    x := h'.x.trans h.x
    y := h'.y.trans h.y
    sp := h'.sp.trans h.sp
    pc := h'.pc.trans h.pc
    p := h'.p.trans h.p
    others := fun b hb => (h'.others b hb).trans (h.others b hb) }

theorem WroteAt.of_answer {s : State} {a : Addr} {v : Byte} {m : Memory} (h : s.bus.writeAnswer a v = some m) :
    WroteAt a s ((s.tick (.write a v)).setMem m) :=
  { ReadsOnly.tick s (.write a v) with
    wf := fun hw => by
      rcases Bus.writeAnswer_eq h with hm | hm <;> subst hm
      · exact Memory.write_wf s.bus.mem a v hw
      · exact hw
    others := fun _ hb => Bus.writeAnswer_read_other h hb }

theorem busWrite_wrote (a : Addr) (v : Byte) (s : State) :
    (busWrite a v s).Meets (fun _ t => WroteAt a s t ∧ t.e = s.e) (EndedInDone s) :=
  (busWrite_meets a v s).weaken (fun _ _ ⟨_, h, ht⟩ => ht ▸ ⟨WroteAt.of_answer h, rfl⟩)
    fun _ h => h.2 ▸ EndedInDone.of_write s a v

/-! ## Answers -/

/-- A sequence that answers a next state went through, or stopped at a failing access. -/
theorem Flow.Meets.of_answer {f : Flow Unit} {P : Unit → State → Prop} {Q : State → Prop} {t : State}
    (h : f.answer = .next t) (hf : f.Meets P Q) : (∃ s, P () s ∧ t = s.complete) ∨ Q t := by
  cases f with
  | ok v s => exact .inl ⟨s, hf, by simpa [Flow.answer] using h.symm⟩
  | stopped s =>
    have ht : s = t := by simpa [Flow.answer] using h
    exact .inr (ht ▸ hf)

/-- A sequence always answers a next state. -/
theorem Flow.answer_next (f : Flow Unit) : ∃ t, f.answer = .next t := by
  cases f with
  | ok v s => exact ⟨_, rfl⟩
  | stopped s => exact ⟨_, rfl⟩

/-- An implied or accumulator instruction applies its operation after one access, or ends in `Done`. -/
theorem impliedOp_outcome {op : State → State} {s t : State} (h : impliedOp op s = .next t) :
    (∃ s', ReadsOnly s s' ∧ t = (op s').complete) ∨ EndedInDone s t := by
  refine (Flow.Meets.of_answer (P := fun _ u => ∃ s', ReadsOnly s s' ∧ u = op s') h ?_).imp
    (fun ⟨_, ⟨s', hs', hu⟩, ht⟩ => ⟨s', hs', hu ▸ ht⟩) id
  exact Flow.Meets.bind (dummyRead_reads _ s) fun _ s' hs' => ⟨s', hs'.1, rfl⟩

/-- A read instruction applies its operation to a byte the bus gave it, or ends in `Done`. -/
theorem readMem_outcome {o : MemOperand} {op : Byte → State → State} {s t : State}
    (h : readMem o op s = .next t) :
    (∃ v s', ReadsOnly s s' ∧ t = (op v s').complete) ∨ EndedInDone s t := by
  refine (Flow.Meets.of_answer (P := fun _ u => ∃ v s', ReadsOnly s s' ∧ u = op v s') h ?_).imp
    (fun ⟨_, ⟨v, s', hs', hu⟩, ht⟩ => ⟨v, s', hs', hu ▸ ht⟩) id
  refine Flow.Meets.bind (MemOperand.resolve_reads false o s) fun ea u hu => ?_
  refine Flow.Meets.bind ((busRead_reads ea u).weaken (fun _ _ h' => hu.1.trans h'.1) fun _ h' =>
    hu.1.trans_ended h') fun v u' hu' => ⟨v, u', hu', rfl⟩

/-- A store writes at the address its operand resolves to, or ends in `Done` with memory as before. -/
theorem writeMem_outcome {o : MemOperand} {value : State → Byte} {s t : State} (h : writeMem o value s = .next t) :
    (∃ ea s', o.resolve true s = .ok ea s' ∧ (∃ u, WroteAt ea s u ∧ t = u.complete)) ∨ EndedInDone s t := by
  have hr := MemOperand.resolve_reads true o s
  unfold writeMem at h
  cases hf : o.resolve true s with
  | stopped s' =>
    rw [hf] at h hr
    simp only [Flow.bind_stopped, Flow.answer_stopped, Host.Outcome.next.injEq] at h
    exact .inr (h ▸ hr)
  | ok ea s' =>
    rw [hf] at h hr
    rcases Flow.Meets.of_answer h (busWrite_wrote ea _ s') with ⟨u, hu, ht⟩ | hd
    · exact .inl ⟨ea, s', rfl, u, (hr.1.wroteAt ea).trans hu.1, ht⟩
    · exact .inr (hr.1.trans_ended hd)

/-- What a read-modify-write leaves alone: the flags are written with its dummy write (R102). -/
structure Modified (ea : Addr) (s t : State) : Prop extends Ran s t where
  a : t.a = s.a
  x : t.x = s.x
  y : t.y = s.y
  sp : t.sp = s.sp
  pc : t.pc = s.pc
  others : ∀ b : Addr, b ≠ ea → t.byteAt b = s.byteAt b

/-- The flags after a read-modify-write are the old ones or those its operation gives. -/
def flagsOf (op : Byte → Flags → Byte × Flags) (s t : State) : Prop := t.p = s.p ∨ ∃ v, t.p = (op v s.p).2

theorem WroteAt.modified {ea : Addr} {s t : State} (h : WroteAt ea s t) : Modified ea s t :=
  { h.toRan with
    a := h.a
    x := h.x
    y := h.y
    sp := h.sp
    pc := h.pc
    others := h.others }

theorem modifyAt_outcome (ea : Addr) (op : Byte → Flags → Byte × Flags) (s : State) :
    (modifyAt ea op s).Meets (fun _ t => Modified ea s t ∧ flagsOf op s t)
      (fun t => Modified ea s t ∧ flagsOf op s t ∧ FailedAccess t) := by
  unfold modifyAt
  refine Flow.Meets.bind ((busRead_reads ea s).weaken (fun _ _ h => h.1) fun t h =>
    ⟨(h.toReadsOnly.wroteAt ea).modified, .inl h.p, h.failed⟩) fun v s1 h1 => ?_
  refine Flow.Meets.bind ((busWrite_wrote ea v s1).weaken (fun _ _ h => (h1.wroteAt ea).trans h.1) fun t h => ?_)
    fun _ s2 h2 => ?_
  · have hd := h1.trans_ended h
    exact ⟨(hd.toReadsOnly.wroteAt ea).modified, .inl hd.p, hd.failed⟩
  · have keep {u : State} (hu : WroteAt ea (s2.setP (op v s2.p).2) u) :
        Modified ea s u ∧ flagsOf op s u := by
      refine ⟨?_, .inr ⟨v, by rw [hu.p, ← h2.p]; rfl⟩⟩
      have hran : Ran s2 u := { hu.toRan with }
      exact { Ran.trans h2.toRan hran with
        a := hu.a.trans h2.a
        x := hu.x.trans h2.x
        y := hu.y.trans h2.y
        sp := hu.sp.trans h2.sp
        pc := hu.pc.trans h2.pc
        others := fun b hb => (hu.others b hb).trans (h2.others b hb) }
    exact (busWrite_wrote ea _ _).weaken (fun _ _ h => keep h.1) fun _ h =>
      ⟨(keep (h.toReadsOnly.wroteAt ea)).1, (keep (h.toReadsOnly.wroteAt ea)).2, h.failed⟩

/-- A read-modify-write changes memory at the address its operand resolves to at most. -/
theorem modifyMem_outcome {o : MemOperand} {op : Byte → Flags → Byte × Flags} {s t : State}
    (h : modifyMem o op s = .next t) :
    (∃ ea s', o.resolve true s = .ok ea s' ∧ flagsOf op s t ∧
      ((∃ u, Modified ea s u ∧ t = u.complete) ∨ Modified ea s t ∧ FailedAccess t)) ∨ EndedInDone s t := by
  have hr := MemOperand.resolve_reads true o s
  unfold modifyMem at h
  cases hf : o.resolve true s with
  | stopped s' =>
    rw [hf] at h hr
    simp only [Flow.bind_stopped, Flow.answer_stopped, Host.Outcome.next.injEq] at h
    exact .inr (h ▸ hr)
  | ok ea s' =>
    rw [hf] at h hr
    have hp := hr.1.p
    have lift {u : State} (hu : Modified ea s' u) : Modified ea s u :=
      { Ran.trans hr.1.toRan hu.toRan with
        a := hu.a.trans hr.1.a
        x := hu.x.trans hr.1.x
        y := hu.y.trans hr.1.y
        sp := hu.sp.trans hr.1.sp
        pc := hu.pc.trans hr.1.pc
        others := fun b hb => (hu.others b hb).trans (hr.1.byteAt b) }
    rcases Flow.Meets.of_answer h (modifyAt_outcome ea op s') with ⟨u, hu, ht⟩ | hd
    · exact .inl ⟨ea, s', rfl, by subst ht; simpa [flagsOf, hp] using hu.2, .inl ⟨u, lift hu.1, ht⟩⟩
    · exact .inl ⟨ea, s', rfl, by simpa [flagsOf, hp] using hd.2.1, .inr ⟨lift hd.1, hd.2.2⟩⟩

/-- A branch writes `PC` at most: the target, or nothing. -/
theorem branchIf_outcome {cond : Flags → Bool} {offset : Byte} {s t : State} (h : branchIf cond offset s = .next t) :
    (∃ s' pc, ReadsOnly s s' ∧ t = (s'.setPc pc).complete) ∨ EndedInDone s t ∨
      ∃ s' pc, EndedInDone s s' ∧ t = s'.setPc pc := by
  unfold branchIf at h
  split at h
  · have hm : (takeBranch offset s).Meets (fun _ u => ∃ s' pc, ReadsOnly s s' ∧ u = s'.setPc pc)
        (fun u => EndedInDone s u ∨ ∃ s' pc, EndedInDone s s' ∧ u = s'.setPc pc) := by
      unfold takeBranch
      refine Flow.Meets.bind ((dummyRead_reads _ s).weaken (fun _ _ h => h.1) fun _ h => .inl h) fun _ s1 h1 => ?_
      split
      · refine (dummyRead_meets _ _).weaken ?_ ?_
        · rintro _ _ ⟨c, rfl⟩
          exact ⟨s1.tick c, _, h1.trans (ReadsOnly.tick s1 c), rfl⟩
        · rintro _ rfl
          exact .inr ⟨_, _, h1.trans_ended (EndedInDone.of_read s1 _), rfl⟩
      · exact ⟨s1, _, h1, rfl⟩
    rcases Flow.Meets.of_answer h hm with ⟨_, ⟨s', pc, hs', rfl⟩, ht⟩ | hd
    · exact .inl ⟨s', pc, hs', ht⟩
    · exact .inr hd
  · simp only [Flow.answer_ok, Host.Outcome.next.injEq] at h
    exact .inl ⟨s, s.pc, ReadsOnly.refl s, h.symm⟩

/-- `Push` writes at the stack address of the old `SP` and decrements `SP`, or leaves both as they were. -/
theorem push_outcome (v : Byte) (s : State) :
    (push v s).Meets (fun _ t => ∃ u, WroteAt (stackAddr s.sp) s u ∧ t = u.setSp (s.sp - 1#8)) (EndedInDone s) :=
  Flow.Meets.bind (busWrite_wrote _ v s) fun _ u hu => ⟨u, hu.1, by rw [hu.1.sp]⟩

/-- `Pull` reads above `SP` and increments it, or leaves it as it was. -/
theorem pull_outcome (s : State) :
    (pull s).Meets (fun _ t => ∃ u, ReadsOnly s u ∧ t = u.setSp (s.sp + 1#8)) (EndedInDone s) :=
  Flow.Meets.bind (busRead_reads _ s) fun _ u hu => ⟨u, hu.1, by rw [hu.1.sp]⟩

/-- A push instruction. -/
theorem pushOp_outcome {value : State → Byte} {s t : State} (h : pushOp value s = .next t) :
    (∃ u, WroteAt (stackAddr s.sp) s u ∧ t = (u.setSp (s.sp - 1#8)).complete) ∨ EndedInDone s t := by
  refine (Flow.Meets.of_answer (P := fun _ t => ∃ u, WroteAt (stackAddr s.sp) s u ∧ t = u.setSp (s.sp - 1#8)) h
    ?_).imp (fun ⟨_, ⟨u, hu, hs⟩, ht⟩ => ⟨u, hu, hs ▸ ht⟩) id
  refine Flow.Meets.bind (dummyRead_reads _ s) fun _ s1 h1 => ?_
  refine (push_outcome _ s1).weaken (fun _ t ⟨u, hu, ht⟩ => ⟨u, ?_, ?_⟩) fun _ hd => h1.1.trans_ended hd
  · rw [h1.1.sp] at hu
    exact (h1.1.wroteAt _).trans hu
  · rw [ht, h1.1.sp]

/-- A pull instruction. -/
theorem pullOp_outcome {op : Byte → State → State} {s t : State} (h : pullOp op s = .next t) :
    (∃ v u, ReadsOnly s u ∧ t = (op v (u.setSp (s.sp + 1#8))).complete) ∨ EndedInDone s t := by
  refine (Flow.Meets.of_answer
    (P := fun _ t => ∃ v u, ReadsOnly s u ∧ t = op v (u.setSp (s.sp + 1#8))) h ?_).imp
    (fun ⟨_, ⟨v, u, hu, hs⟩, ht⟩ => ⟨v, u, hu, hs ▸ ht⟩) id
  refine Flow.Meets.bind (dummyRead_reads _ s) fun _ s1 h1 => ?_
  refine Flow.Meets.bind ((dummyRead_reads _ s1).weaken (fun _ _ h => h1.1.trans h.1) fun _ h =>
    h1.1.trans_ended h) fun _ s2 h2 => ?_
  refine Flow.Meets.bind ((pull_outcome s2).weaken (fun _ _ h => h) fun _ h => h2.trans_ended h) fun v s3 h3 => ?_
  obtain ⟨u, hu, rfl⟩ := h3
  exact ⟨v, u, h2.trans hu, by rw [h2.sp]⟩

/-! ## Control transfers -/

/-- JMP indirect reads its pointer and writes `PC` alone, or ends in `Done`. -/
theorem execJmpInd_outcome {ptr : Addr} {s t : State} (h : execJmpInd ptr s = .next t) :
    (∃ s' pc, ReadsOnly s s' ∧ t = (s'.setPc pc).complete) ∨ EndedInDone s t := by
  refine (Flow.Meets.of_answer (P := fun _ u => ∃ s' pc, ReadsOnly s s' ∧ u = s'.setPc pc) h ?_).imp
    (fun ⟨_, ⟨s', pc, hs', hu⟩, ht⟩ => ⟨s', pc, hs', hu ▸ ht⟩) id
  refine Flow.Meets.bind (busRead_reads _ s) fun _ s1 h1 => ?_
  exact Flow.Meets.bind ((busRead_reads _ s1).weaken (fun _ _ h => h1.1.trans h.1) fun _ h =>
    h1.1.trans_ended h) fun _ s2 h2 => ⟨s2, _, h2, rfl⟩

/-- What a call or a return leaves alone: `A`, `X`, `Y`, and every byte but the stored ones. -/
structure Transferred (stored : Addr → Prop) (s t : State) : Prop extends Ran s t where
  a : t.a = s.a
  x : t.x = s.x
  y : t.y = s.y
  others : ∀ b : Addr, ¬ stored b → t.byteAt b = s.byteAt b

theorem Transferred.trans {stored : Addr → Prop} {s t u : State} (h : Transferred stored s t)
    (h' : Transferred stored t u) : Transferred stored s u :=
  { Ran.trans h.toRan h'.toRan with
    a := h'.a.trans h.a
    x := h'.x.trans h.x
    y := h'.y.trans h.y
    others := fun b hb => (h'.others b hb).trans (h.others b hb) }

theorem ReadsOnly.transferred {s t : State} (stored : Addr → Prop) (h : ReadsOnly s t) : Transferred stored s t :=
  { h.toRan with
    a := h.a
    x := h.x
    y := h.y
    others := fun b _ => h.byteAt b }

theorem WroteAt.transferred {ea : Addr} {s t : State} {stored : Addr → Prop} (h : WroteAt ea s t) (hs : stored ea) :
    Transferred stored s t :=
  { h.toRan with
    a := h.a
    x := h.x
    y := h.y
    others := fun b hb => h.others b fun he => hb (he ▸ hs) }

theorem Transferred.setSp {stored : Addr → Prop} {s t : State} (h : Transferred stored s t) (v : Byte) :
    Transferred stored s (t.setSp v) := { h with }

theorem Transferred.setPc {stored : Addr → Prop} {s t : State} (h : Transferred stored s t) (v : Addr) :
    Transferred stored s (t.setPc v) := { h with }

theorem Transferred.setP {stored : Addr → Prop} {s t : State} (h : Transferred stored s t) (f : Flags) :
    Transferred stored s (t.setP f) := { h with }

theorem Transferred.complete {stored : Addr → Prop} {s t : State} (h : Transferred stored s t) :
    Transferred stored s t.complete := { h with }

/-- The bytes JSR stores to (R46, R47, R182). -/
def jsrStores (s : State) (b : Addr) : Prop := b = stackAddr s.sp ∨ b = stackAddr (s.sp - 1#8)

/-- JSR stores to two bytes of the stack at most. -/
theorem execJsr_outcome {a : Addr} {s t : State} (h : execJsr a s = .next t) :
    Transferred (jsrStores s) s t ∧ t.p = s.p ∧ (t.e = .fetchOpcode ∨ FailedAccess t) := by
  have hm : (((dummyRead (stackAddr s.sp) s).bind fun _ s =>
      (push (hiByte s.pc) s).bind fun _ s =>
      (push (loByte s.pc) s).bind fun _ s =>
      (busRead s.pc s).bind fun hi s => .ok () (s.setPc (joinBytes hi (loByte a)))) : Flow Unit).Meets
      (fun _ t => Transferred (jsrStores s) s t ∧ t.p = s.p)
      (fun t => Transferred (jsrStores s) s t ∧ t.p = s.p ∧ FailedAccess t) := by
    refine Flow.Meets.bind ((dummyRead_reads _ s).weaken (fun _ _ h => h.1) fun _ h =>
      ⟨h.toReadsOnly.transferred _, h.p, h.failed⟩) fun _ s1 h1 => ?_
    have t1 : Transferred (jsrStores s) s s1 := h1.transferred _
    refine Flow.Meets.bind ((push_outcome _ s1).weaken (fun _ _ h => h) fun _ h =>
      ⟨t1.trans (h.toReadsOnly.transferred _), h.p.trans h1.p, h.failed⟩) fun _ s2 h2 => ?_
    obtain ⟨u2, hu2, rfl⟩ := h2
    have t2 : Transferred (jsrStores s) s (u2.setSp (s1.sp - 1#8)) :=
      (t1.trans (hu2.transferred (.inl (by rw [h1.sp])))).setSp _
    have p2 : u2.p = s.p := hu2.p.trans h1.p
    refine Flow.Meets.bind ((push_outcome _ (u2.setSp (s1.sp - 1#8))).weaken (fun _ _ h => h) fun _ h =>
      ⟨t2.trans (h.toReadsOnly.transferred _), h.p.trans p2, h.failed⟩) fun _ s3 h3 => ?_
    obtain ⟨u3, hu3, rfl⟩ := h3
    have t3 := (t2.trans (hu3.transferred (.inr (by rw [State.setSp_sp, h1.sp])))).setSp
      ((u2.setSp (s1.sp - 1#8)).sp - 1#8)
    have p3 : u3.p = s.p := hu3.p.trans p2
    refine Flow.Meets.bind ((busRead_reads _ _).weaken (fun _ _ h => h.1) fun _ h =>
      ⟨t3.trans (h.toReadsOnly.transferred _), h.p.trans p3, h.failed⟩) fun _ s4 h4 => ?_
    exact ⟨(t3.trans (h4.transferred _)).setPc _, h4.p.trans p3⟩
  rcases Flow.Meets.of_answer h hm with ⟨u, hu, ht⟩ | hd
  · subst ht
    exact ⟨hu.1.complete, hu.2, .inl rfl⟩
  · exact ⟨hd.1, hd.2.1, .inr hd.2.2⟩

/-- A pull inside a longer sequence stores nothing. -/
theorem pull_transferred {s t : State} (h : Transferred (fun _ => False) s t) :
    (pull t).Meets (fun _ u => Transferred (fun _ => False) s u ∧ u.p = t.p)
      (fun u => Transferred (fun _ => False) s u ∧ u.p = t.p ∧ FailedAccess u) :=
  (pull_outcome t).weaken
    (fun _ _ ⟨_, hu, he⟩ => he ▸ ⟨(h.trans (hu.transferred _)).setSp _, hu.p⟩)
    fun _ hd => ⟨h.trans (hd.toReadsOnly.transferred _), hd.p, hd.failed⟩

theorem dummyRead_transferred {s t : State} (a : Addr) (h : Transferred (fun _ => False) s t) :
    (dummyRead a t).Meets (fun _ u => Transferred (fun _ => False) s u ∧ u.p = t.p)
      (fun u => Transferred (fun _ => False) s u ∧ u.p = t.p ∧ FailedAccess u) :=
  (dummyRead_reads a t).weaken (fun _ _ hu => ⟨h.trans (hu.1.transferred _), hu.1.p⟩)
    fun _ hd => ⟨h.trans (hd.toReadsOnly.transferred _), hd.p, hd.failed⟩

/-- RTS stores nothing and keeps the flags. -/
theorem execRts_outcome {s t : State} (h : execRts s = .next t) :
    Transferred (fun _ => False) s t ∧ t.p = s.p ∧ (t.e = .fetchOpcode ∨ FailedAccess t) := by
  have fail {u v : State} (hu : u.p = s.p)
      (hv : Transferred (fun _ => False) s v ∧ v.p = u.p ∧ FailedAccess v) :
      Transferred (fun _ => False) s v ∧ v.p = s.p ∧ FailedAccess v := ⟨hv.1, hv.2.1.trans hu, hv.2.2⟩
  have hm : (((dummyRead s.pc s).bind fun _ s =>
      (dummyRead (stackAddr s.sp) s).bind fun _ s =>
      (pull s).bind fun lo s =>
      (pull s).bind fun hi s =>
      (dummyRead (joinBytes hi lo) (s.setPc (joinBytes hi lo))).bind fun _ s =>
        .ok () (s.setPc (s.pc + 1#16))) : Flow Unit).Meets
      (fun _ t => Transferred (fun _ => False) s t ∧ t.p = s.p)
      (fun t => Transferred (fun _ => False) s t ∧ t.p = s.p ∧ FailedAccess t) := by
    refine Flow.Meets.bind (dummyRead_transferred _ ((ReadsOnly.refl s).transferred _)) fun _ s1 h1 => ?_
    refine Flow.Meets.bind ((dummyRead_transferred _ h1.1).weaken (fun _ _ h => h) fun _ => fail h1.2)
      fun _ s2 h2 => ?_
    have p2 := h2.2.trans h1.2
    refine Flow.Meets.bind ((pull_transferred h2.1).weaken (fun _ _ h => h) fun _ => fail p2) fun lo s3 h3 => ?_
    have p3 := h3.2.trans p2
    refine Flow.Meets.bind ((pull_transferred h3.1).weaken (fun _ _ h => h) fun _ => fail p3) fun hi s4 h4 => ?_
    have p4 := h4.2.trans p3
    refine Flow.Meets.bind ((dummyRead_transferred _ (h4.1.setPc (joinBytes hi lo))).weaken (fun _ _ h => h)
      fun _ => fail (u := s4.setPc (joinBytes hi lo)) p4) fun _ s5 h5 => ?_
    exact ⟨h5.1.setPc _, h5.2.trans p4⟩
  rcases Flow.Meets.of_answer h hm with ⟨u, hu, ht⟩ | hd
  · subst ht
    exact ⟨hu.1.complete, hu.2, .inl rfl⟩
  · exact ⟨hd.1, hd.2.1, .inr hd.2.2⟩

/-- RTI stores nothing. -/
theorem execRti_outcome {s t : State} (h : execRti s = .next t) :
    Transferred (fun _ => False) s t ∧ (t.e = .fetchOpcode ∨ FailedAccess t) := by
  have fail {u v : State} (hv : Transferred (fun _ => False) s v ∧ v.p = u.p ∧ FailedAccess v) :
      Transferred (fun _ => False) s v ∧ FailedAccess v := ⟨hv.1, hv.2.2⟩
  have hm : (((dummyRead s.pc s).bind fun _ s =>
      (dummyRead (stackAddr s.sp) s).bind fun _ s =>
      (pull s).bind fun b s =>
      (pull (s.setP (updateFromByte b))).bind fun lo s =>
      (pull s).bind fun hi s => .ok () (s.setPc (joinBytes hi lo))) : Flow Unit).Meets
      (fun _ t => Transferred (fun _ => False) s t) (fun t => Transferred (fun _ => False) s t ∧ FailedAccess t) := by
    refine Flow.Meets.bind ((dummyRead_transferred _ ((ReadsOnly.refl s).transferred _)).weaken
      (fun _ _ h => h.1) fun _ => fail) fun _ s1 h1 => ?_
    refine Flow.Meets.bind ((dummyRead_transferred _ h1).weaken (fun _ _ h => h.1) fun _ => fail) fun _ s2 h2 => ?_
    refine Flow.Meets.bind ((pull_transferred h2).weaken (fun _ _ h => h.1) fun _ => fail) fun b s3 h3 => ?_
    refine Flow.Meets.bind ((pull_transferred (h3.setP (updateFromByte b))).weaken (fun _ _ h => h.1)
      fun _ => fail) fun lo s4 h4 => ?_
    refine Flow.Meets.bind ((pull_transferred h4).weaken (fun _ _ h => h.1) fun _ => fail) fun hi s5 h5 => ?_
    exact h5.setPc _
  rcases Flow.Meets.of_answer h hm with ⟨u, hu, ht⟩ | hd
  · subst ht
    exact ⟨hu.complete, .inl rfl⟩
  · exact ⟨hd.1, .inr hd.2⟩

end Sys2Proof.Machine
end

