-- ==== Sys2Proof/Laws/Rows.lean ====
section
/-! SUPPORT. The descriptor of every instruction, with its operand left open: `Instr.row` computed once. -/

namespace Sys2Proof

@[simp] theorem Instr.row_halt : Instr.row .halt = none :=
  show dispatch 0x00#8 = _ from rfl
@[simp] theorem Instr.row_oraIndX (z : Byte) : Instr.row (.oraIndX z) = some ⟨.ora, .indirectX, .read, 6, .f2 .oraIndX⟩ :=
  show dispatch 0x01#8 = _ from rfl
@[simp] theorem Instr.row_oraZp (z : Byte) : Instr.row (.oraZp z) = some ⟨.ora, .zeroPage, .read, 3, .f2 .oraZp⟩ :=
  show dispatch 0x05#8 = _ from rfl
@[simp] theorem Instr.row_aslZp (z : Byte) : Instr.row (.aslZp z) = some ⟨.asl, .zeroPage, .rmw, 5, .f2 .aslZp⟩ :=
  show dispatch 0x06#8 = _ from rfl
@[simp] theorem Instr.row_php : Instr.row .php = some ⟨.php, .implied, .push, 3, .f1 .php⟩ :=
  show dispatch 0x08#8 = _ from rfl
@[simp] theorem Instr.row_oraImm (imm : Byte) : Instr.row (.oraImm imm) = some ⟨.ora, .immediate, .read, 2, .f2 .oraImm⟩ :=
  show dispatch 0x09#8 = _ from rfl
@[simp] theorem Instr.row_aslAcc : Instr.row .aslAcc = some ⟨.asl, .accumulator, .accumulator, 2, .f1 .aslAcc⟩ :=
  show dispatch 0x0A#8 = _ from rfl
@[simp] theorem Instr.row_oraAbs (a : Addr) : Instr.row (.oraAbs a) = some ⟨.ora, .absolute, .read, 4, .f3 .oraAbs⟩ :=
  show dispatch 0x0D#8 = _ from rfl
@[simp] theorem Instr.row_aslAbs (a : Addr) : Instr.row (.aslAbs a) = some ⟨.asl, .absolute, .rmw, 6, .f3 .aslAbs⟩ :=
  show dispatch 0x0E#8 = _ from rfl
@[simp] theorem Instr.row_bpl (offset : Byte) : Instr.row (.bpl offset) = some ⟨.bpl, .relative, .branch, 2, .f2 .bpl⟩ :=
  show dispatch 0x10#8 = _ from rfl
@[simp] theorem Instr.row_oraIndY (z : Byte) : Instr.row (.oraIndY z) = some ⟨.ora, .indirectY, .read, 5, .f2 .oraIndY⟩ :=
  show dispatch 0x11#8 = _ from rfl
@[simp] theorem Instr.row_oraZpX (z : Byte) : Instr.row (.oraZpX z) = some ⟨.ora, .zeroPageX, .read, 4, .f2 .oraZpX⟩ :=
  show dispatch 0x15#8 = _ from rfl
@[simp] theorem Instr.row_aslZpX (z : Byte) : Instr.row (.aslZpX z) = some ⟨.asl, .zeroPageX, .rmw, 6, .f2 .aslZpX⟩ :=
  show dispatch 0x16#8 = _ from rfl
@[simp] theorem Instr.row_clc : Instr.row .clc = some ⟨.clc, .implied, .implied, 2, .f1 .clc⟩ :=
  show dispatch 0x18#8 = _ from rfl
@[simp] theorem Instr.row_oraAbsY (a : Addr) : Instr.row (.oraAbsY a) = some ⟨.ora, .absoluteY, .read, 4, .f3 .oraAbsY⟩ :=
  show dispatch 0x19#8 = _ from rfl
@[simp] theorem Instr.row_oraAbsX (a : Addr) : Instr.row (.oraAbsX a) = some ⟨.ora, .absoluteX, .read, 4, .f3 .oraAbsX⟩ :=
  show dispatch 0x1D#8 = _ from rfl
@[simp] theorem Instr.row_aslAbsX (a : Addr) : Instr.row (.aslAbsX a) = some ⟨.asl, .absoluteX, .rmw, 7, .f3 .aslAbsX⟩ :=
  show dispatch 0x1E#8 = _ from rfl
@[simp] theorem Instr.row_jsr (a : Addr) : Instr.row (.jsr a) = some ⟨.jsr, .absolute, .call, 6, .f3 .jsr⟩ :=
  show dispatch 0x20#8 = _ from rfl
@[simp] theorem Instr.row_andIndX (z : Byte) : Instr.row (.andIndX z) = some ⟨.and, .indirectX, .read, 6, .f2 .andIndX⟩ :=
  show dispatch 0x21#8 = _ from rfl
@[simp] theorem Instr.row_bitZp (z : Byte) : Instr.row (.bitZp z) = some ⟨.bit, .zeroPage, .read, 3, .f2 .bitZp⟩ :=
  show dispatch 0x24#8 = _ from rfl
@[simp] theorem Instr.row_andZp (z : Byte) : Instr.row (.andZp z) = some ⟨.and, .zeroPage, .read, 3, .f2 .andZp⟩ :=
  show dispatch 0x25#8 = _ from rfl
@[simp] theorem Instr.row_rolZp (z : Byte) : Instr.row (.rolZp z) = some ⟨.rol, .zeroPage, .rmw, 5, .f2 .rolZp⟩ :=
  show dispatch 0x26#8 = _ from rfl
@[simp] theorem Instr.row_plp : Instr.row .plp = some ⟨.plp, .implied, .pull, 4, .f1 .plp⟩ :=
  show dispatch 0x28#8 = _ from rfl
@[simp] theorem Instr.row_andImm (imm : Byte) : Instr.row (.andImm imm) = some ⟨.and, .immediate, .read, 2, .f2 .andImm⟩ :=
  show dispatch 0x29#8 = _ from rfl
@[simp] theorem Instr.row_rolAcc : Instr.row .rolAcc = some ⟨.rol, .accumulator, .accumulator, 2, .f1 .rolAcc⟩ :=
  show dispatch 0x2A#8 = _ from rfl
@[simp] theorem Instr.row_bitAbs (a : Addr) : Instr.row (.bitAbs a) = some ⟨.bit, .absolute, .read, 4, .f3 .bitAbs⟩ :=
  show dispatch 0x2C#8 = _ from rfl
@[simp] theorem Instr.row_andAbs (a : Addr) : Instr.row (.andAbs a) = some ⟨.and, .absolute, .read, 4, .f3 .andAbs⟩ :=
  show dispatch 0x2D#8 = _ from rfl
@[simp] theorem Instr.row_rolAbs (a : Addr) : Instr.row (.rolAbs a) = some ⟨.rol, .absolute, .rmw, 6, .f3 .rolAbs⟩ :=
  show dispatch 0x2E#8 = _ from rfl
@[simp] theorem Instr.row_bmi (offset : Byte) : Instr.row (.bmi offset) = some ⟨.bmi, .relative, .branch, 2, .f2 .bmi⟩ :=
  show dispatch 0x30#8 = _ from rfl
@[simp] theorem Instr.row_andIndY (z : Byte) : Instr.row (.andIndY z) = some ⟨.and, .indirectY, .read, 5, .f2 .andIndY⟩ :=
  show dispatch 0x31#8 = _ from rfl
@[simp] theorem Instr.row_andZpX (z : Byte) : Instr.row (.andZpX z) = some ⟨.and, .zeroPageX, .read, 4, .f2 .andZpX⟩ :=
  show dispatch 0x35#8 = _ from rfl
@[simp] theorem Instr.row_rolZpX (z : Byte) : Instr.row (.rolZpX z) = some ⟨.rol, .zeroPageX, .rmw, 6, .f2 .rolZpX⟩ :=
  show dispatch 0x36#8 = _ from rfl
@[simp] theorem Instr.row_sec : Instr.row .sec = some ⟨.sec, .implied, .implied, 2, .f1 .sec⟩ :=
  show dispatch 0x38#8 = _ from rfl
@[simp] theorem Instr.row_andAbsY (a : Addr) : Instr.row (.andAbsY a) = some ⟨.and, .absoluteY, .read, 4, .f3 .andAbsY⟩ :=
  show dispatch 0x39#8 = _ from rfl
@[simp] theorem Instr.row_andAbsX (a : Addr) : Instr.row (.andAbsX a) = some ⟨.and, .absoluteX, .read, 4, .f3 .andAbsX⟩ :=
  show dispatch 0x3D#8 = _ from rfl
@[simp] theorem Instr.row_rolAbsX (a : Addr) : Instr.row (.rolAbsX a) = some ⟨.rol, .absoluteX, .rmw, 7, .f3 .rolAbsX⟩ :=
  show dispatch 0x3E#8 = _ from rfl
@[simp] theorem Instr.row_rti : Instr.row .rti = some ⟨.rti, .implied, .rti, 6, .f1 .rti⟩ :=
  show dispatch 0x40#8 = _ from rfl
@[simp] theorem Instr.row_eorIndX (z : Byte) : Instr.row (.eorIndX z) = some ⟨.eor, .indirectX, .read, 6, .f2 .eorIndX⟩ :=
  show dispatch 0x41#8 = _ from rfl
@[simp] theorem Instr.row_eorZp (z : Byte) : Instr.row (.eorZp z) = some ⟨.eor, .zeroPage, .read, 3, .f2 .eorZp⟩ :=
  show dispatch 0x45#8 = _ from rfl
@[simp] theorem Instr.row_lsrZp (z : Byte) : Instr.row (.lsrZp z) = some ⟨.lsr, .zeroPage, .rmw, 5, .f2 .lsrZp⟩ :=
  show dispatch 0x46#8 = _ from rfl
@[simp] theorem Instr.row_pha : Instr.row .pha = some ⟨.pha, .implied, .push, 3, .f1 .pha⟩ :=
  show dispatch 0x48#8 = _ from rfl
@[simp] theorem Instr.row_eorImm (imm : Byte) : Instr.row (.eorImm imm) = some ⟨.eor, .immediate, .read, 2, .f2 .eorImm⟩ :=
  show dispatch 0x49#8 = _ from rfl
@[simp] theorem Instr.row_lsrAcc : Instr.row .lsrAcc = some ⟨.lsr, .accumulator, .accumulator, 2, .f1 .lsrAcc⟩ :=
  show dispatch 0x4A#8 = _ from rfl
@[simp] theorem Instr.row_jmpAbs (a : Addr) : Instr.row (.jmpAbs a) = some ⟨.jmp, .absolute, .jump, 3, .f3 .jmpAbs⟩ :=
  show dispatch 0x4C#8 = _ from rfl
@[simp] theorem Instr.row_eorAbs (a : Addr) : Instr.row (.eorAbs a) = some ⟨.eor, .absolute, .read, 4, .f3 .eorAbs⟩ :=
  show dispatch 0x4D#8 = _ from rfl
@[simp] theorem Instr.row_lsrAbs (a : Addr) : Instr.row (.lsrAbs a) = some ⟨.lsr, .absolute, .rmw, 6, .f3 .lsrAbs⟩ :=
  show dispatch 0x4E#8 = _ from rfl
@[simp] theorem Instr.row_bvc (offset : Byte) : Instr.row (.bvc offset) = some ⟨.bvc, .relative, .branch, 2, .f2 .bvc⟩ :=
  show dispatch 0x50#8 = _ from rfl
@[simp] theorem Instr.row_eorIndY (z : Byte) : Instr.row (.eorIndY z) = some ⟨.eor, .indirectY, .read, 5, .f2 .eorIndY⟩ :=
  show dispatch 0x51#8 = _ from rfl
@[simp] theorem Instr.row_eorZpX (z : Byte) : Instr.row (.eorZpX z) = some ⟨.eor, .zeroPageX, .read, 4, .f2 .eorZpX⟩ :=
  show dispatch 0x55#8 = _ from rfl
@[simp] theorem Instr.row_lsrZpX (z : Byte) : Instr.row (.lsrZpX z) = some ⟨.lsr, .zeroPageX, .rmw, 6, .f2 .lsrZpX⟩ :=
  show dispatch 0x56#8 = _ from rfl
@[simp] theorem Instr.row_cli : Instr.row .cli = some ⟨.cli, .implied, .implied, 2, .f1 .cli⟩ :=
  show dispatch 0x58#8 = _ from rfl
@[simp] theorem Instr.row_eorAbsY (a : Addr) : Instr.row (.eorAbsY a) = some ⟨.eor, .absoluteY, .read, 4, .f3 .eorAbsY⟩ :=
  show dispatch 0x59#8 = _ from rfl
@[simp] theorem Instr.row_eorAbsX (a : Addr) : Instr.row (.eorAbsX a) = some ⟨.eor, .absoluteX, .read, 4, .f3 .eorAbsX⟩ :=
  show dispatch 0x5D#8 = _ from rfl
@[simp] theorem Instr.row_lsrAbsX (a : Addr) : Instr.row (.lsrAbsX a) = some ⟨.lsr, .absoluteX, .rmw, 7, .f3 .lsrAbsX⟩ :=
  show dispatch 0x5E#8 = _ from rfl
@[simp] theorem Instr.row_rts : Instr.row .rts = some ⟨.rts, .implied, .ret, 6, .f1 .rts⟩ :=
  show dispatch 0x60#8 = _ from rfl
@[simp] theorem Instr.row_adcIndX (z : Byte) : Instr.row (.adcIndX z) = some ⟨.adc, .indirectX, .read, 6, .f2 .adcIndX⟩ :=
  show dispatch 0x61#8 = _ from rfl
@[simp] theorem Instr.row_adcZp (z : Byte) : Instr.row (.adcZp z) = some ⟨.adc, .zeroPage, .read, 3, .f2 .adcZp⟩ :=
  show dispatch 0x65#8 = _ from rfl
@[simp] theorem Instr.row_rorZp (z : Byte) : Instr.row (.rorZp z) = some ⟨.ror, .zeroPage, .rmw, 5, .f2 .rorZp⟩ :=
  show dispatch 0x66#8 = _ from rfl
@[simp] theorem Instr.row_pla : Instr.row .pla = some ⟨.pla, .implied, .pull, 4, .f1 .pla⟩ :=
  show dispatch 0x68#8 = _ from rfl
@[simp] theorem Instr.row_adcImm (imm : Byte) : Instr.row (.adcImm imm) = some ⟨.adc, .immediate, .read, 2, .f2 .adcImm⟩ :=
  show dispatch 0x69#8 = _ from rfl
@[simp] theorem Instr.row_rorAcc : Instr.row .rorAcc = some ⟨.ror, .accumulator, .accumulator, 2, .f1 .rorAcc⟩ :=
  show dispatch 0x6A#8 = _ from rfl
@[simp] theorem Instr.row_jmpInd (ptr : Addr) : Instr.row (.jmpInd ptr) = some ⟨.jmp, .absoluteIndirect, .jumpIndirect, 5, .f3 .jmpInd⟩ :=
  show dispatch 0x6C#8 = _ from rfl
@[simp] theorem Instr.row_adcAbs (a : Addr) : Instr.row (.adcAbs a) = some ⟨.adc, .absolute, .read, 4, .f3 .adcAbs⟩ :=
  show dispatch 0x6D#8 = _ from rfl
@[simp] theorem Instr.row_rorAbs (a : Addr) : Instr.row (.rorAbs a) = some ⟨.ror, .absolute, .rmw, 6, .f3 .rorAbs⟩ :=
  show dispatch 0x6E#8 = _ from rfl
@[simp] theorem Instr.row_bvs (offset : Byte) : Instr.row (.bvs offset) = some ⟨.bvs, .relative, .branch, 2, .f2 .bvs⟩ :=
  show dispatch 0x70#8 = _ from rfl
@[simp] theorem Instr.row_adcIndY (z : Byte) : Instr.row (.adcIndY z) = some ⟨.adc, .indirectY, .read, 5, .f2 .adcIndY⟩ :=
  show dispatch 0x71#8 = _ from rfl
@[simp] theorem Instr.row_adcZpX (z : Byte) : Instr.row (.adcZpX z) = some ⟨.adc, .zeroPageX, .read, 4, .f2 .adcZpX⟩ :=
  show dispatch 0x75#8 = _ from rfl
@[simp] theorem Instr.row_rorZpX (z : Byte) : Instr.row (.rorZpX z) = some ⟨.ror, .zeroPageX, .rmw, 6, .f2 .rorZpX⟩ :=
  show dispatch 0x76#8 = _ from rfl
@[simp] theorem Instr.row_sei : Instr.row .sei = some ⟨.sei, .implied, .implied, 2, .f1 .sei⟩ :=
  show dispatch 0x78#8 = _ from rfl
@[simp] theorem Instr.row_adcAbsY (a : Addr) : Instr.row (.adcAbsY a) = some ⟨.adc, .absoluteY, .read, 4, .f3 .adcAbsY⟩ :=
  show dispatch 0x79#8 = _ from rfl
@[simp] theorem Instr.row_adcAbsX (a : Addr) : Instr.row (.adcAbsX a) = some ⟨.adc, .absoluteX, .read, 4, .f3 .adcAbsX⟩ :=
  show dispatch 0x7D#8 = _ from rfl
@[simp] theorem Instr.row_rorAbsX (a : Addr) : Instr.row (.rorAbsX a) = some ⟨.ror, .absoluteX, .rmw, 7, .f3 .rorAbsX⟩ :=
  show dispatch 0x7E#8 = _ from rfl
@[simp] theorem Instr.row_staIndX (z : Byte) : Instr.row (.staIndX z) = some ⟨.sta, .indirectX, .write, 6, .f2 .staIndX⟩ :=
  show dispatch 0x81#8 = _ from rfl
@[simp] theorem Instr.row_styZp (z : Byte) : Instr.row (.styZp z) = some ⟨.sty, .zeroPage, .write, 3, .f2 .styZp⟩ :=
  show dispatch 0x84#8 = _ from rfl
@[simp] theorem Instr.row_staZp (z : Byte) : Instr.row (.staZp z) = some ⟨.sta, .zeroPage, .write, 3, .f2 .staZp⟩ :=
  show dispatch 0x85#8 = _ from rfl
@[simp] theorem Instr.row_stxZp (z : Byte) : Instr.row (.stxZp z) = some ⟨.stx, .zeroPage, .write, 3, .f2 .stxZp⟩ :=
  show dispatch 0x86#8 = _ from rfl
@[simp] theorem Instr.row_dey : Instr.row .dey = some ⟨.dey, .implied, .implied, 2, .f1 .dey⟩ :=
  show dispatch 0x88#8 = _ from rfl
@[simp] theorem Instr.row_txa : Instr.row .txa = some ⟨.txa, .implied, .implied, 2, .f1 .txa⟩ :=
  show dispatch 0x8A#8 = _ from rfl
@[simp] theorem Instr.row_styAbs (a : Addr) : Instr.row (.styAbs a) = some ⟨.sty, .absolute, .write, 4, .f3 .styAbs⟩ :=
  show dispatch 0x8C#8 = _ from rfl
@[simp] theorem Instr.row_staAbs (a : Addr) : Instr.row (.staAbs a) = some ⟨.sta, .absolute, .write, 4, .f3 .staAbs⟩ :=
  show dispatch 0x8D#8 = _ from rfl
@[simp] theorem Instr.row_stxAbs (a : Addr) : Instr.row (.stxAbs a) = some ⟨.stx, .absolute, .write, 4, .f3 .stxAbs⟩ :=
  show dispatch 0x8E#8 = _ from rfl
@[simp] theorem Instr.row_bcc (offset : Byte) : Instr.row (.bcc offset) = some ⟨.bcc, .relative, .branch, 2, .f2 .bcc⟩ :=
  show dispatch 0x90#8 = _ from rfl
@[simp] theorem Instr.row_staIndY (z : Byte) : Instr.row (.staIndY z) = some ⟨.sta, .indirectY, .write, 6, .f2 .staIndY⟩ :=
  show dispatch 0x91#8 = _ from rfl
@[simp] theorem Instr.row_styZpX (z : Byte) : Instr.row (.styZpX z) = some ⟨.sty, .zeroPageX, .write, 4, .f2 .styZpX⟩ :=
  show dispatch 0x94#8 = _ from rfl
@[simp] theorem Instr.row_staZpX (z : Byte) : Instr.row (.staZpX z) = some ⟨.sta, .zeroPageX, .write, 4, .f2 .staZpX⟩ :=
  show dispatch 0x95#8 = _ from rfl
@[simp] theorem Instr.row_stxZpY (z : Byte) : Instr.row (.stxZpY z) = some ⟨.stx, .zeroPageY, .write, 4, .f2 .stxZpY⟩ :=
  show dispatch 0x96#8 = _ from rfl
@[simp] theorem Instr.row_tya : Instr.row .tya = some ⟨.tya, .implied, .implied, 2, .f1 .tya⟩ :=
  show dispatch 0x98#8 = _ from rfl
@[simp] theorem Instr.row_staAbsY (a : Addr) : Instr.row (.staAbsY a) = some ⟨.sta, .absoluteY, .write, 5, .f3 .staAbsY⟩ :=
  show dispatch 0x99#8 = _ from rfl
@[simp] theorem Instr.row_txs : Instr.row .txs = some ⟨.txs, .implied, .implied, 2, .f1 .txs⟩ :=
  show dispatch 0x9A#8 = _ from rfl
@[simp] theorem Instr.row_staAbsX (a : Addr) : Instr.row (.staAbsX a) = some ⟨.sta, .absoluteX, .write, 5, .f3 .staAbsX⟩ :=
  show dispatch 0x9D#8 = _ from rfl
@[simp] theorem Instr.row_ldyImm (imm : Byte) : Instr.row (.ldyImm imm) = some ⟨.ldy, .immediate, .read, 2, .f2 .ldyImm⟩ :=
  show dispatch 0xA0#8 = _ from rfl
@[simp] theorem Instr.row_ldaIndX (z : Byte) : Instr.row (.ldaIndX z) = some ⟨.lda, .indirectX, .read, 6, .f2 .ldaIndX⟩ :=
  show dispatch 0xA1#8 = _ from rfl
@[simp] theorem Instr.row_ldxImm (imm : Byte) : Instr.row (.ldxImm imm) = some ⟨.ldx, .immediate, .read, 2, .f2 .ldxImm⟩ :=
  show dispatch 0xA2#8 = _ from rfl
@[simp] theorem Instr.row_ldyZp (z : Byte) : Instr.row (.ldyZp z) = some ⟨.ldy, .zeroPage, .read, 3, .f2 .ldyZp⟩ :=
  show dispatch 0xA4#8 = _ from rfl
@[simp] theorem Instr.row_ldaZp (z : Byte) : Instr.row (.ldaZp z) = some ⟨.lda, .zeroPage, .read, 3, .f2 .ldaZp⟩ :=
  show dispatch 0xA5#8 = _ from rfl
@[simp] theorem Instr.row_ldxZp (z : Byte) : Instr.row (.ldxZp z) = some ⟨.ldx, .zeroPage, .read, 3, .f2 .ldxZp⟩ :=
  show dispatch 0xA6#8 = _ from rfl
@[simp] theorem Instr.row_tay : Instr.row .tay = some ⟨.tay, .implied, .implied, 2, .f1 .tay⟩ :=
  show dispatch 0xA8#8 = _ from rfl
@[simp] theorem Instr.row_ldaImm (imm : Byte) : Instr.row (.ldaImm imm) = some ⟨.lda, .immediate, .read, 2, .f2 .ldaImm⟩ :=
  show dispatch 0xA9#8 = _ from rfl
@[simp] theorem Instr.row_tax : Instr.row .tax = some ⟨.tax, .implied, .implied, 2, .f1 .tax⟩ :=
  show dispatch 0xAA#8 = _ from rfl
@[simp] theorem Instr.row_ldyAbs (a : Addr) : Instr.row (.ldyAbs a) = some ⟨.ldy, .absolute, .read, 4, .f3 .ldyAbs⟩ :=
  show dispatch 0xAC#8 = _ from rfl
@[simp] theorem Instr.row_ldaAbs (a : Addr) : Instr.row (.ldaAbs a) = some ⟨.lda, .absolute, .read, 4, .f3 .ldaAbs⟩ :=
  show dispatch 0xAD#8 = _ from rfl
@[simp] theorem Instr.row_ldxAbs (a : Addr) : Instr.row (.ldxAbs a) = some ⟨.ldx, .absolute, .read, 4, .f3 .ldxAbs⟩ :=
  show dispatch 0xAE#8 = _ from rfl
@[simp] theorem Instr.row_bcs (offset : Byte) : Instr.row (.bcs offset) = some ⟨.bcs, .relative, .branch, 2, .f2 .bcs⟩ :=
  show dispatch 0xB0#8 = _ from rfl
@[simp] theorem Instr.row_ldaIndY (z : Byte) : Instr.row (.ldaIndY z) = some ⟨.lda, .indirectY, .read, 5, .f2 .ldaIndY⟩ :=
  show dispatch 0xB1#8 = _ from rfl
@[simp] theorem Instr.row_ldyZpX (z : Byte) : Instr.row (.ldyZpX z) = some ⟨.ldy, .zeroPageX, .read, 4, .f2 .ldyZpX⟩ :=
  show dispatch 0xB4#8 = _ from rfl
@[simp] theorem Instr.row_ldaZpX (z : Byte) : Instr.row (.ldaZpX z) = some ⟨.lda, .zeroPageX, .read, 4, .f2 .ldaZpX⟩ :=
  show dispatch 0xB5#8 = _ from rfl
@[simp] theorem Instr.row_ldxZpY (z : Byte) : Instr.row (.ldxZpY z) = some ⟨.ldx, .zeroPageY, .read, 4, .f2 .ldxZpY⟩ :=
  show dispatch 0xB6#8 = _ from rfl
@[simp] theorem Instr.row_clv : Instr.row .clv = some ⟨.clv, .implied, .implied, 2, .f1 .clv⟩ :=
  show dispatch 0xB8#8 = _ from rfl
@[simp] theorem Instr.row_ldaAbsY (a : Addr) : Instr.row (.ldaAbsY a) = some ⟨.lda, .absoluteY, .read, 4, .f3 .ldaAbsY⟩ :=
  show dispatch 0xB9#8 = _ from rfl
@[simp] theorem Instr.row_tsx : Instr.row .tsx = some ⟨.tsx, .implied, .implied, 2, .f1 .tsx⟩ :=
  show dispatch 0xBA#8 = _ from rfl
@[simp] theorem Instr.row_ldyAbsX (a : Addr) : Instr.row (.ldyAbsX a) = some ⟨.ldy, .absoluteX, .read, 4, .f3 .ldyAbsX⟩ :=
  show dispatch 0xBC#8 = _ from rfl
@[simp] theorem Instr.row_ldaAbsX (a : Addr) : Instr.row (.ldaAbsX a) = some ⟨.lda, .absoluteX, .read, 4, .f3 .ldaAbsX⟩ :=
  show dispatch 0xBD#8 = _ from rfl
@[simp] theorem Instr.row_ldxAbsY (a : Addr) : Instr.row (.ldxAbsY a) = some ⟨.ldx, .absoluteY, .read, 4, .f3 .ldxAbsY⟩ :=
  show dispatch 0xBE#8 = _ from rfl
@[simp] theorem Instr.row_cpyImm (imm : Byte) : Instr.row (.cpyImm imm) = some ⟨.cpy, .immediate, .read, 2, .f2 .cpyImm⟩ :=
  show dispatch 0xC0#8 = _ from rfl
@[simp] theorem Instr.row_cmpIndX (z : Byte) : Instr.row (.cmpIndX z) = some ⟨.cmp, .indirectX, .read, 6, .f2 .cmpIndX⟩ :=
  show dispatch 0xC1#8 = _ from rfl
@[simp] theorem Instr.row_cpyZp (z : Byte) : Instr.row (.cpyZp z) = some ⟨.cpy, .zeroPage, .read, 3, .f2 .cpyZp⟩ :=
  show dispatch 0xC4#8 = _ from rfl
@[simp] theorem Instr.row_cmpZp (z : Byte) : Instr.row (.cmpZp z) = some ⟨.cmp, .zeroPage, .read, 3, .f2 .cmpZp⟩ :=
  show dispatch 0xC5#8 = _ from rfl
@[simp] theorem Instr.row_decZp (z : Byte) : Instr.row (.decZp z) = some ⟨.dec, .zeroPage, .rmw, 5, .f2 .decZp⟩ :=
  show dispatch 0xC6#8 = _ from rfl
@[simp] theorem Instr.row_iny : Instr.row .iny = some ⟨.iny, .implied, .implied, 2, .f1 .iny⟩ :=
  show dispatch 0xC8#8 = _ from rfl
@[simp] theorem Instr.row_cmpImm (imm : Byte) : Instr.row (.cmpImm imm) = some ⟨.cmp, .immediate, .read, 2, .f2 .cmpImm⟩ :=
  show dispatch 0xC9#8 = _ from rfl
@[simp] theorem Instr.row_dex : Instr.row .dex = some ⟨.dex, .implied, .implied, 2, .f1 .dex⟩ :=
  show dispatch 0xCA#8 = _ from rfl
@[simp] theorem Instr.row_cpyAbs (a : Addr) : Instr.row (.cpyAbs a) = some ⟨.cpy, .absolute, .read, 4, .f3 .cpyAbs⟩ :=
  show dispatch 0xCC#8 = _ from rfl
@[simp] theorem Instr.row_cmpAbs (a : Addr) : Instr.row (.cmpAbs a) = some ⟨.cmp, .absolute, .read, 4, .f3 .cmpAbs⟩ :=
  show dispatch 0xCD#8 = _ from rfl
@[simp] theorem Instr.row_decAbs (a : Addr) : Instr.row (.decAbs a) = some ⟨.dec, .absolute, .rmw, 6, .f3 .decAbs⟩ :=
  show dispatch 0xCE#8 = _ from rfl
@[simp] theorem Instr.row_bne (offset : Byte) : Instr.row (.bne offset) = some ⟨.bne, .relative, .branch, 2, .f2 .bne⟩ :=
  show dispatch 0xD0#8 = _ from rfl
@[simp] theorem Instr.row_cmpIndY (z : Byte) : Instr.row (.cmpIndY z) = some ⟨.cmp, .indirectY, .read, 5, .f2 .cmpIndY⟩ :=
  show dispatch 0xD1#8 = _ from rfl
@[simp] theorem Instr.row_cmpZpX (z : Byte) : Instr.row (.cmpZpX z) = some ⟨.cmp, .zeroPageX, .read, 4, .f2 .cmpZpX⟩ :=
  show dispatch 0xD5#8 = _ from rfl
@[simp] theorem Instr.row_decZpX (z : Byte) : Instr.row (.decZpX z) = some ⟨.dec, .zeroPageX, .rmw, 6, .f2 .decZpX⟩ :=
  show dispatch 0xD6#8 = _ from rfl
@[simp] theorem Instr.row_cld : Instr.row .cld = some ⟨.cld, .implied, .implied, 2, .f1 .cld⟩ :=
  show dispatch 0xD8#8 = _ from rfl
@[simp] theorem Instr.row_cmpAbsY (a : Addr) : Instr.row (.cmpAbsY a) = some ⟨.cmp, .absoluteY, .read, 4, .f3 .cmpAbsY⟩ :=
  show dispatch 0xD9#8 = _ from rfl
@[simp] theorem Instr.row_cmpAbsX (a : Addr) : Instr.row (.cmpAbsX a) = some ⟨.cmp, .absoluteX, .read, 4, .f3 .cmpAbsX⟩ :=
  show dispatch 0xDD#8 = _ from rfl
@[simp] theorem Instr.row_decAbsX (a : Addr) : Instr.row (.decAbsX a) = some ⟨.dec, .absoluteX, .rmw, 7, .f3 .decAbsX⟩ :=
  show dispatch 0xDE#8 = _ from rfl
@[simp] theorem Instr.row_cpxImm (imm : Byte) : Instr.row (.cpxImm imm) = some ⟨.cpx, .immediate, .read, 2, .f2 .cpxImm⟩ :=
  show dispatch 0xE0#8 = _ from rfl
@[simp] theorem Instr.row_sbcIndX (z : Byte) : Instr.row (.sbcIndX z) = some ⟨.sbc, .indirectX, .read, 6, .f2 .sbcIndX⟩ :=
  show dispatch 0xE1#8 = _ from rfl
@[simp] theorem Instr.row_cpxZp (z : Byte) : Instr.row (.cpxZp z) = some ⟨.cpx, .zeroPage, .read, 3, .f2 .cpxZp⟩ :=
  show dispatch 0xE4#8 = _ from rfl
@[simp] theorem Instr.row_sbcZp (z : Byte) : Instr.row (.sbcZp z) = some ⟨.sbc, .zeroPage, .read, 3, .f2 .sbcZp⟩ :=
  show dispatch 0xE5#8 = _ from rfl
@[simp] theorem Instr.row_incZp (z : Byte) : Instr.row (.incZp z) = some ⟨.inc, .zeroPage, .rmw, 5, .f2 .incZp⟩ :=
  show dispatch 0xE6#8 = _ from rfl
@[simp] theorem Instr.row_inx : Instr.row .inx = some ⟨.inx, .implied, .implied, 2, .f1 .inx⟩ :=
  show dispatch 0xE8#8 = _ from rfl
@[simp] theorem Instr.row_sbcImm (imm : Byte) : Instr.row (.sbcImm imm) = some ⟨.sbc, .immediate, .read, 2, .f2 .sbcImm⟩ :=
  show dispatch 0xE9#8 = _ from rfl
@[simp] theorem Instr.row_nop : Instr.row .nop = some ⟨.nop, .implied, .implied, 2, .f1 .nop⟩ :=
  show dispatch 0xEA#8 = _ from rfl
@[simp] theorem Instr.row_cpxAbs (a : Addr) : Instr.row (.cpxAbs a) = some ⟨.cpx, .absolute, .read, 4, .f3 .cpxAbs⟩ :=
  show dispatch 0xEC#8 = _ from rfl
@[simp] theorem Instr.row_sbcAbs (a : Addr) : Instr.row (.sbcAbs a) = some ⟨.sbc, .absolute, .read, 4, .f3 .sbcAbs⟩ :=
  show dispatch 0xED#8 = _ from rfl
@[simp] theorem Instr.row_incAbs (a : Addr) : Instr.row (.incAbs a) = some ⟨.inc, .absolute, .rmw, 6, .f3 .incAbs⟩ :=
  show dispatch 0xEE#8 = _ from rfl
@[simp] theorem Instr.row_beq (offset : Byte) : Instr.row (.beq offset) = some ⟨.beq, .relative, .branch, 2, .f2 .beq⟩ :=
  show dispatch 0xF0#8 = _ from rfl
@[simp] theorem Instr.row_sbcIndY (z : Byte) : Instr.row (.sbcIndY z) = some ⟨.sbc, .indirectY, .read, 5, .f2 .sbcIndY⟩ :=
  show dispatch 0xF1#8 = _ from rfl
@[simp] theorem Instr.row_sbcZpX (z : Byte) : Instr.row (.sbcZpX z) = some ⟨.sbc, .zeroPageX, .read, 4, .f2 .sbcZpX⟩ :=
  show dispatch 0xF5#8 = _ from rfl
@[simp] theorem Instr.row_incZpX (z : Byte) : Instr.row (.incZpX z) = some ⟨.inc, .zeroPageX, .rmw, 6, .f2 .incZpX⟩ :=
  show dispatch 0xF6#8 = _ from rfl
@[simp] theorem Instr.row_sed : Instr.row .sed = some ⟨.sed, .implied, .implied, 2, .f1 .sed⟩ :=
  show dispatch 0xF8#8 = _ from rfl
@[simp] theorem Instr.row_sbcAbsY (a : Addr) : Instr.row (.sbcAbsY a) = some ⟨.sbc, .absoluteY, .read, 4, .f3 .sbcAbsY⟩ :=
  show dispatch 0xF9#8 = _ from rfl
@[simp] theorem Instr.row_sbcAbsX (a : Addr) : Instr.row (.sbcAbsX a) = some ⟨.sbc, .absoluteX, .read, 4, .f3 .sbcAbsX⟩ :=
  show dispatch 0xFD#8 = _ from rfl
@[simp] theorem Instr.row_incAbsX (a : Addr) : Instr.row (.incAbsX a) = some ⟨.inc, .absoluteX, .rmw, 7, .f3 .incAbsX⟩ :=
  show dispatch 0xFE#8 = _ from rfl

end Sys2Proof
end

