-- ==== Sys2Proof/Laws/PerInstr.lean ====
section
/-! SUPPORT. The per-instruction family `Encoding`: every instruction is well-formed, and its encoding has as many
operand bytes as its descriptor's mode takes (R62). One lemma per constructor. -/

namespace Sys2Proof.Laws.Encoding

open Sys2Proof

/-- The encoding of an instruction passes the checks, and its length is that of its mode. -/
def Statement (i : Instr) : Prop :=
  i.wellFormed = true ∧ ∀ row, i.row = some row → (encode i).length = 1 + row.mode.operandBytes

theorem length_of {i : Instr} {r row : Row} {n : Nat} (hr : i.row = some r) (h : i.row = some row)
    (hn : n = 1 + r.mode.operandBytes) : n = 1 + row.mode.operandBytes :=
  Option.some.inj (hr.symm.trans h) ▸ hn

theorem halt : Statement .halt :=
  ⟨rfl, fun _ h => absurd (Instr.row_halt.symm.trans h) nofun⟩
theorem oraIndX (z : Byte) : Statement (.oraIndX z) :=
  ⟨rfl, fun _ h => length_of (Instr.row_oraIndX _) h rfl⟩
theorem oraZp (z : Byte) : Statement (.oraZp z) :=
  ⟨rfl, fun _ h => length_of (Instr.row_oraZp _) h rfl⟩
theorem aslZp (z : Byte) : Statement (.aslZp z) :=
  ⟨rfl, fun _ h => length_of (Instr.row_aslZp _) h rfl⟩
theorem php : Statement .php :=
  ⟨rfl, fun _ h => length_of Instr.row_php h rfl⟩
theorem oraImm (imm : Byte) : Statement (.oraImm imm) :=
  ⟨rfl, fun _ h => length_of (Instr.row_oraImm _) h rfl⟩
theorem aslAcc : Statement .aslAcc :=
  ⟨rfl, fun _ h => length_of Instr.row_aslAcc h rfl⟩
theorem oraAbs (a : Addr) : Statement (.oraAbs a) :=
  ⟨rfl, fun _ h => length_of (Instr.row_oraAbs _) h rfl⟩
theorem aslAbs (a : Addr) : Statement (.aslAbs a) :=
  ⟨rfl, fun _ h => length_of (Instr.row_aslAbs _) h rfl⟩
theorem bpl (offset : Byte) : Statement (.bpl offset) :=
  ⟨rfl, fun _ h => length_of (Instr.row_bpl _) h rfl⟩
theorem oraIndY (z : Byte) : Statement (.oraIndY z) :=
  ⟨rfl, fun _ h => length_of (Instr.row_oraIndY _) h rfl⟩
theorem oraZpX (z : Byte) : Statement (.oraZpX z) :=
  ⟨rfl, fun _ h => length_of (Instr.row_oraZpX _) h rfl⟩
theorem aslZpX (z : Byte) : Statement (.aslZpX z) :=
  ⟨rfl, fun _ h => length_of (Instr.row_aslZpX _) h rfl⟩
theorem clc : Statement .clc :=
  ⟨rfl, fun _ h => length_of Instr.row_clc h rfl⟩
theorem oraAbsY (a : Addr) : Statement (.oraAbsY a) :=
  ⟨rfl, fun _ h => length_of (Instr.row_oraAbsY _) h rfl⟩
theorem oraAbsX (a : Addr) : Statement (.oraAbsX a) :=
  ⟨rfl, fun _ h => length_of (Instr.row_oraAbsX _) h rfl⟩
theorem aslAbsX (a : Addr) : Statement (.aslAbsX a) :=
  ⟨rfl, fun _ h => length_of (Instr.row_aslAbsX _) h rfl⟩
theorem jsr (a : Addr) : Statement (.jsr a) :=
  ⟨rfl, fun _ h => length_of (Instr.row_jsr _) h rfl⟩
theorem andIndX (z : Byte) : Statement (.andIndX z) :=
  ⟨rfl, fun _ h => length_of (Instr.row_andIndX _) h rfl⟩
theorem bitZp (z : Byte) : Statement (.bitZp z) :=
  ⟨rfl, fun _ h => length_of (Instr.row_bitZp _) h rfl⟩
theorem andZp (z : Byte) : Statement (.andZp z) :=
  ⟨rfl, fun _ h => length_of (Instr.row_andZp _) h rfl⟩
theorem rolZp (z : Byte) : Statement (.rolZp z) :=
  ⟨rfl, fun _ h => length_of (Instr.row_rolZp _) h rfl⟩
theorem plp : Statement .plp :=
  ⟨rfl, fun _ h => length_of Instr.row_plp h rfl⟩
theorem andImm (imm : Byte) : Statement (.andImm imm) :=
  ⟨rfl, fun _ h => length_of (Instr.row_andImm _) h rfl⟩
theorem rolAcc : Statement .rolAcc :=
  ⟨rfl, fun _ h => length_of Instr.row_rolAcc h rfl⟩
theorem bitAbs (a : Addr) : Statement (.bitAbs a) :=
  ⟨rfl, fun _ h => length_of (Instr.row_bitAbs _) h rfl⟩
theorem andAbs (a : Addr) : Statement (.andAbs a) :=
  ⟨rfl, fun _ h => length_of (Instr.row_andAbs _) h rfl⟩
theorem rolAbs (a : Addr) : Statement (.rolAbs a) :=
  ⟨rfl, fun _ h => length_of (Instr.row_rolAbs _) h rfl⟩
theorem bmi (offset : Byte) : Statement (.bmi offset) :=
  ⟨rfl, fun _ h => length_of (Instr.row_bmi _) h rfl⟩
theorem andIndY (z : Byte) : Statement (.andIndY z) :=
  ⟨rfl, fun _ h => length_of (Instr.row_andIndY _) h rfl⟩
theorem andZpX (z : Byte) : Statement (.andZpX z) :=
  ⟨rfl, fun _ h => length_of (Instr.row_andZpX _) h rfl⟩
theorem rolZpX (z : Byte) : Statement (.rolZpX z) :=
  ⟨rfl, fun _ h => length_of (Instr.row_rolZpX _) h rfl⟩
theorem sec : Statement .sec :=
  ⟨rfl, fun _ h => length_of Instr.row_sec h rfl⟩
theorem andAbsY (a : Addr) : Statement (.andAbsY a) :=
  ⟨rfl, fun _ h => length_of (Instr.row_andAbsY _) h rfl⟩
theorem andAbsX (a : Addr) : Statement (.andAbsX a) :=
  ⟨rfl, fun _ h => length_of (Instr.row_andAbsX _) h rfl⟩
theorem rolAbsX (a : Addr) : Statement (.rolAbsX a) :=
  ⟨rfl, fun _ h => length_of (Instr.row_rolAbsX _) h rfl⟩
theorem rti : Statement .rti :=
  ⟨rfl, fun _ h => length_of Instr.row_rti h rfl⟩
theorem eorIndX (z : Byte) : Statement (.eorIndX z) :=
  ⟨rfl, fun _ h => length_of (Instr.row_eorIndX _) h rfl⟩
theorem eorZp (z : Byte) : Statement (.eorZp z) :=
  ⟨rfl, fun _ h => length_of (Instr.row_eorZp _) h rfl⟩
theorem lsrZp (z : Byte) : Statement (.lsrZp z) :=
  ⟨rfl, fun _ h => length_of (Instr.row_lsrZp _) h rfl⟩
theorem pha : Statement .pha :=
  ⟨rfl, fun _ h => length_of Instr.row_pha h rfl⟩
theorem eorImm (imm : Byte) : Statement (.eorImm imm) :=
  ⟨rfl, fun _ h => length_of (Instr.row_eorImm _) h rfl⟩
theorem lsrAcc : Statement .lsrAcc :=
  ⟨rfl, fun _ h => length_of Instr.row_lsrAcc h rfl⟩
theorem jmpAbs (a : Addr) : Statement (.jmpAbs a) :=
  ⟨rfl, fun _ h => length_of (Instr.row_jmpAbs _) h rfl⟩
theorem eorAbs (a : Addr) : Statement (.eorAbs a) :=
  ⟨rfl, fun _ h => length_of (Instr.row_eorAbs _) h rfl⟩
theorem lsrAbs (a : Addr) : Statement (.lsrAbs a) :=
  ⟨rfl, fun _ h => length_of (Instr.row_lsrAbs _) h rfl⟩
theorem bvc (offset : Byte) : Statement (.bvc offset) :=
  ⟨rfl, fun _ h => length_of (Instr.row_bvc _) h rfl⟩
theorem eorIndY (z : Byte) : Statement (.eorIndY z) :=
  ⟨rfl, fun _ h => length_of (Instr.row_eorIndY _) h rfl⟩
theorem eorZpX (z : Byte) : Statement (.eorZpX z) :=
  ⟨rfl, fun _ h => length_of (Instr.row_eorZpX _) h rfl⟩
theorem lsrZpX (z : Byte) : Statement (.lsrZpX z) :=
  ⟨rfl, fun _ h => length_of (Instr.row_lsrZpX _) h rfl⟩
theorem cli : Statement .cli :=
  ⟨rfl, fun _ h => length_of Instr.row_cli h rfl⟩
theorem eorAbsY (a : Addr) : Statement (.eorAbsY a) :=
  ⟨rfl, fun _ h => length_of (Instr.row_eorAbsY _) h rfl⟩
theorem eorAbsX (a : Addr) : Statement (.eorAbsX a) :=
  ⟨rfl, fun _ h => length_of (Instr.row_eorAbsX _) h rfl⟩
theorem lsrAbsX (a : Addr) : Statement (.lsrAbsX a) :=
  ⟨rfl, fun _ h => length_of (Instr.row_lsrAbsX _) h rfl⟩
theorem rts : Statement .rts :=
  ⟨rfl, fun _ h => length_of Instr.row_rts h rfl⟩
theorem adcIndX (z : Byte) : Statement (.adcIndX z) :=
  ⟨rfl, fun _ h => length_of (Instr.row_adcIndX _) h rfl⟩
theorem adcZp (z : Byte) : Statement (.adcZp z) :=
  ⟨rfl, fun _ h => length_of (Instr.row_adcZp _) h rfl⟩
theorem rorZp (z : Byte) : Statement (.rorZp z) :=
  ⟨rfl, fun _ h => length_of (Instr.row_rorZp _) h rfl⟩
theorem pla : Statement .pla :=
  ⟨rfl, fun _ h => length_of Instr.row_pla h rfl⟩
theorem adcImm (imm : Byte) : Statement (.adcImm imm) :=
  ⟨rfl, fun _ h => length_of (Instr.row_adcImm _) h rfl⟩
theorem rorAcc : Statement .rorAcc :=
  ⟨rfl, fun _ h => length_of Instr.row_rorAcc h rfl⟩
theorem jmpInd (ptr : Addr) : Statement (.jmpInd ptr) :=
  ⟨rfl, fun _ h => length_of (Instr.row_jmpInd _) h rfl⟩
theorem adcAbs (a : Addr) : Statement (.adcAbs a) :=
  ⟨rfl, fun _ h => length_of (Instr.row_adcAbs _) h rfl⟩
theorem rorAbs (a : Addr) : Statement (.rorAbs a) :=
  ⟨rfl, fun _ h => length_of (Instr.row_rorAbs _) h rfl⟩
theorem bvs (offset : Byte) : Statement (.bvs offset) :=
  ⟨rfl, fun _ h => length_of (Instr.row_bvs _) h rfl⟩
theorem adcIndY (z : Byte) : Statement (.adcIndY z) :=
  ⟨rfl, fun _ h => length_of (Instr.row_adcIndY _) h rfl⟩
theorem adcZpX (z : Byte) : Statement (.adcZpX z) :=
  ⟨rfl, fun _ h => length_of (Instr.row_adcZpX _) h rfl⟩
theorem rorZpX (z : Byte) : Statement (.rorZpX z) :=
  ⟨rfl, fun _ h => length_of (Instr.row_rorZpX _) h rfl⟩
theorem sei : Statement .sei :=
  ⟨rfl, fun _ h => length_of Instr.row_sei h rfl⟩
theorem adcAbsY (a : Addr) : Statement (.adcAbsY a) :=
  ⟨rfl, fun _ h => length_of (Instr.row_adcAbsY _) h rfl⟩
theorem adcAbsX (a : Addr) : Statement (.adcAbsX a) :=
  ⟨rfl, fun _ h => length_of (Instr.row_adcAbsX _) h rfl⟩
theorem rorAbsX (a : Addr) : Statement (.rorAbsX a) :=
  ⟨rfl, fun _ h => length_of (Instr.row_rorAbsX _) h rfl⟩
theorem staIndX (z : Byte) : Statement (.staIndX z) :=
  ⟨rfl, fun _ h => length_of (Instr.row_staIndX _) h rfl⟩
theorem styZp (z : Byte) : Statement (.styZp z) :=
  ⟨rfl, fun _ h => length_of (Instr.row_styZp _) h rfl⟩
theorem staZp (z : Byte) : Statement (.staZp z) :=
  ⟨rfl, fun _ h => length_of (Instr.row_staZp _) h rfl⟩
theorem stxZp (z : Byte) : Statement (.stxZp z) :=
  ⟨rfl, fun _ h => length_of (Instr.row_stxZp _) h rfl⟩
theorem dey : Statement .dey :=
  ⟨rfl, fun _ h => length_of Instr.row_dey h rfl⟩
theorem txa : Statement .txa :=
  ⟨rfl, fun _ h => length_of Instr.row_txa h rfl⟩
theorem styAbs (a : Addr) : Statement (.styAbs a) :=
  ⟨rfl, fun _ h => length_of (Instr.row_styAbs _) h rfl⟩
theorem staAbs (a : Addr) : Statement (.staAbs a) :=
  ⟨rfl, fun _ h => length_of (Instr.row_staAbs _) h rfl⟩
theorem stxAbs (a : Addr) : Statement (.stxAbs a) :=
  ⟨rfl, fun _ h => length_of (Instr.row_stxAbs _) h rfl⟩
theorem bcc (offset : Byte) : Statement (.bcc offset) :=
  ⟨rfl, fun _ h => length_of (Instr.row_bcc _) h rfl⟩
theorem staIndY (z : Byte) : Statement (.staIndY z) :=
  ⟨rfl, fun _ h => length_of (Instr.row_staIndY _) h rfl⟩
theorem styZpX (z : Byte) : Statement (.styZpX z) :=
  ⟨rfl, fun _ h => length_of (Instr.row_styZpX _) h rfl⟩
theorem staZpX (z : Byte) : Statement (.staZpX z) :=
  ⟨rfl, fun _ h => length_of (Instr.row_staZpX _) h rfl⟩
theorem stxZpY (z : Byte) : Statement (.stxZpY z) :=
  ⟨rfl, fun _ h => length_of (Instr.row_stxZpY _) h rfl⟩
theorem tya : Statement .tya :=
  ⟨rfl, fun _ h => length_of Instr.row_tya h rfl⟩
theorem staAbsY (a : Addr) : Statement (.staAbsY a) :=
  ⟨rfl, fun _ h => length_of (Instr.row_staAbsY _) h rfl⟩
theorem txs : Statement .txs :=
  ⟨rfl, fun _ h => length_of Instr.row_txs h rfl⟩
theorem staAbsX (a : Addr) : Statement (.staAbsX a) :=
  ⟨rfl, fun _ h => length_of (Instr.row_staAbsX _) h rfl⟩
theorem ldyImm (imm : Byte) : Statement (.ldyImm imm) :=
  ⟨rfl, fun _ h => length_of (Instr.row_ldyImm _) h rfl⟩
theorem ldaIndX (z : Byte) : Statement (.ldaIndX z) :=
  ⟨rfl, fun _ h => length_of (Instr.row_ldaIndX _) h rfl⟩
theorem ldxImm (imm : Byte) : Statement (.ldxImm imm) :=
  ⟨rfl, fun _ h => length_of (Instr.row_ldxImm _) h rfl⟩
theorem ldyZp (z : Byte) : Statement (.ldyZp z) :=
  ⟨rfl, fun _ h => length_of (Instr.row_ldyZp _) h rfl⟩
theorem ldaZp (z : Byte) : Statement (.ldaZp z) :=
  ⟨rfl, fun _ h => length_of (Instr.row_ldaZp _) h rfl⟩
theorem ldxZp (z : Byte) : Statement (.ldxZp z) :=
  ⟨rfl, fun _ h => length_of (Instr.row_ldxZp _) h rfl⟩
theorem tay : Statement .tay :=
  ⟨rfl, fun _ h => length_of Instr.row_tay h rfl⟩
theorem ldaImm (imm : Byte) : Statement (.ldaImm imm) :=
  ⟨rfl, fun _ h => length_of (Instr.row_ldaImm _) h rfl⟩
theorem tax : Statement .tax :=
  ⟨rfl, fun _ h => length_of Instr.row_tax h rfl⟩
theorem ldyAbs (a : Addr) : Statement (.ldyAbs a) :=
  ⟨rfl, fun _ h => length_of (Instr.row_ldyAbs _) h rfl⟩
theorem ldaAbs (a : Addr) : Statement (.ldaAbs a) :=
  ⟨rfl, fun _ h => length_of (Instr.row_ldaAbs _) h rfl⟩
theorem ldxAbs (a : Addr) : Statement (.ldxAbs a) :=
  ⟨rfl, fun _ h => length_of (Instr.row_ldxAbs _) h rfl⟩
theorem bcs (offset : Byte) : Statement (.bcs offset) :=
  ⟨rfl, fun _ h => length_of (Instr.row_bcs _) h rfl⟩
theorem ldaIndY (z : Byte) : Statement (.ldaIndY z) :=
  ⟨rfl, fun _ h => length_of (Instr.row_ldaIndY _) h rfl⟩
theorem ldyZpX (z : Byte) : Statement (.ldyZpX z) :=
  ⟨rfl, fun _ h => length_of (Instr.row_ldyZpX _) h rfl⟩
theorem ldaZpX (z : Byte) : Statement (.ldaZpX z) :=
  ⟨rfl, fun _ h => length_of (Instr.row_ldaZpX _) h rfl⟩
theorem ldxZpY (z : Byte) : Statement (.ldxZpY z) :=
  ⟨rfl, fun _ h => length_of (Instr.row_ldxZpY _) h rfl⟩
theorem clv : Statement .clv :=
  ⟨rfl, fun _ h => length_of Instr.row_clv h rfl⟩
theorem ldaAbsY (a : Addr) : Statement (.ldaAbsY a) :=
  ⟨rfl, fun _ h => length_of (Instr.row_ldaAbsY _) h rfl⟩
theorem tsx : Statement .tsx :=
  ⟨rfl, fun _ h => length_of Instr.row_tsx h rfl⟩
theorem ldyAbsX (a : Addr) : Statement (.ldyAbsX a) :=
  ⟨rfl, fun _ h => length_of (Instr.row_ldyAbsX _) h rfl⟩
theorem ldaAbsX (a : Addr) : Statement (.ldaAbsX a) :=
  ⟨rfl, fun _ h => length_of (Instr.row_ldaAbsX _) h rfl⟩
theorem ldxAbsY (a : Addr) : Statement (.ldxAbsY a) :=
  ⟨rfl, fun _ h => length_of (Instr.row_ldxAbsY _) h rfl⟩
theorem cpyImm (imm : Byte) : Statement (.cpyImm imm) :=
  ⟨rfl, fun _ h => length_of (Instr.row_cpyImm _) h rfl⟩
theorem cmpIndX (z : Byte) : Statement (.cmpIndX z) :=
  ⟨rfl, fun _ h => length_of (Instr.row_cmpIndX _) h rfl⟩
theorem cpyZp (z : Byte) : Statement (.cpyZp z) :=
  ⟨rfl, fun _ h => length_of (Instr.row_cpyZp _) h rfl⟩
theorem cmpZp (z : Byte) : Statement (.cmpZp z) :=
  ⟨rfl, fun _ h => length_of (Instr.row_cmpZp _) h rfl⟩
theorem decZp (z : Byte) : Statement (.decZp z) :=
  ⟨rfl, fun _ h => length_of (Instr.row_decZp _) h rfl⟩
theorem iny : Statement .iny :=
  ⟨rfl, fun _ h => length_of Instr.row_iny h rfl⟩
theorem cmpImm (imm : Byte) : Statement (.cmpImm imm) :=
  ⟨rfl, fun _ h => length_of (Instr.row_cmpImm _) h rfl⟩
theorem dex : Statement .dex :=
  ⟨rfl, fun _ h => length_of Instr.row_dex h rfl⟩
theorem cpyAbs (a : Addr) : Statement (.cpyAbs a) :=
  ⟨rfl, fun _ h => length_of (Instr.row_cpyAbs _) h rfl⟩
theorem cmpAbs (a : Addr) : Statement (.cmpAbs a) :=
  ⟨rfl, fun _ h => length_of (Instr.row_cmpAbs _) h rfl⟩
theorem decAbs (a : Addr) : Statement (.decAbs a) :=
  ⟨rfl, fun _ h => length_of (Instr.row_decAbs _) h rfl⟩
theorem bne (offset : Byte) : Statement (.bne offset) :=
  ⟨rfl, fun _ h => length_of (Instr.row_bne _) h rfl⟩
theorem cmpIndY (z : Byte) : Statement (.cmpIndY z) :=
  ⟨rfl, fun _ h => length_of (Instr.row_cmpIndY _) h rfl⟩
theorem cmpZpX (z : Byte) : Statement (.cmpZpX z) :=
  ⟨rfl, fun _ h => length_of (Instr.row_cmpZpX _) h rfl⟩
theorem decZpX (z : Byte) : Statement (.decZpX z) :=
  ⟨rfl, fun _ h => length_of (Instr.row_decZpX _) h rfl⟩
theorem cld : Statement .cld :=
  ⟨rfl, fun _ h => length_of Instr.row_cld h rfl⟩
theorem cmpAbsY (a : Addr) : Statement (.cmpAbsY a) :=
  ⟨rfl, fun _ h => length_of (Instr.row_cmpAbsY _) h rfl⟩
theorem cmpAbsX (a : Addr) : Statement (.cmpAbsX a) :=
  ⟨rfl, fun _ h => length_of (Instr.row_cmpAbsX _) h rfl⟩
theorem decAbsX (a : Addr) : Statement (.decAbsX a) :=
  ⟨rfl, fun _ h => length_of (Instr.row_decAbsX _) h rfl⟩
theorem cpxImm (imm : Byte) : Statement (.cpxImm imm) :=
  ⟨rfl, fun _ h => length_of (Instr.row_cpxImm _) h rfl⟩
theorem sbcIndX (z : Byte) : Statement (.sbcIndX z) :=
  ⟨rfl, fun _ h => length_of (Instr.row_sbcIndX _) h rfl⟩
theorem cpxZp (z : Byte) : Statement (.cpxZp z) :=
  ⟨rfl, fun _ h => length_of (Instr.row_cpxZp _) h rfl⟩
theorem sbcZp (z : Byte) : Statement (.sbcZp z) :=
  ⟨rfl, fun _ h => length_of (Instr.row_sbcZp _) h rfl⟩
theorem incZp (z : Byte) : Statement (.incZp z) :=
  ⟨rfl, fun _ h => length_of (Instr.row_incZp _) h rfl⟩
theorem inx : Statement .inx :=
  ⟨rfl, fun _ h => length_of Instr.row_inx h rfl⟩
theorem sbcImm (imm : Byte) : Statement (.sbcImm imm) :=
  ⟨rfl, fun _ h => length_of (Instr.row_sbcImm _) h rfl⟩
theorem nop : Statement .nop :=
  ⟨rfl, fun _ h => length_of Instr.row_nop h rfl⟩
theorem cpxAbs (a : Addr) : Statement (.cpxAbs a) :=
  ⟨rfl, fun _ h => length_of (Instr.row_cpxAbs _) h rfl⟩
theorem sbcAbs (a : Addr) : Statement (.sbcAbs a) :=
  ⟨rfl, fun _ h => length_of (Instr.row_sbcAbs _) h rfl⟩
theorem incAbs (a : Addr) : Statement (.incAbs a) :=
  ⟨rfl, fun _ h => length_of (Instr.row_incAbs _) h rfl⟩
theorem beq (offset : Byte) : Statement (.beq offset) :=
  ⟨rfl, fun _ h => length_of (Instr.row_beq _) h rfl⟩
theorem sbcIndY (z : Byte) : Statement (.sbcIndY z) :=
  ⟨rfl, fun _ h => length_of (Instr.row_sbcIndY _) h rfl⟩
theorem sbcZpX (z : Byte) : Statement (.sbcZpX z) :=
  ⟨rfl, fun _ h => length_of (Instr.row_sbcZpX _) h rfl⟩
theorem incZpX (z : Byte) : Statement (.incZpX z) :=
  ⟨rfl, fun _ h => length_of (Instr.row_incZpX _) h rfl⟩
theorem sed : Statement .sed :=
  ⟨rfl, fun _ h => length_of Instr.row_sed h rfl⟩
theorem sbcAbsY (a : Addr) : Statement (.sbcAbsY a) :=
  ⟨rfl, fun _ h => length_of (Instr.row_sbcAbsY _) h rfl⟩
theorem sbcAbsX (a : Addr) : Statement (.sbcAbsX a) :=
  ⟨rfl, fun _ h => length_of (Instr.row_sbcAbsX _) h rfl⟩
theorem incAbsX (a : Addr) : Statement (.incAbsX a) :=
  ⟨rfl, fun _ h => length_of (Instr.row_incAbsX _) h rfl⟩

end Sys2Proof.Laws.Encoding
end

