-- ==== Sys2Proof/Tests/Slice0.lean ====
section
/-! SUPPORT. Tests: the checks of `WellFormed` on ill-formed byte strings, words written out from the spec's encodings,
one-instruction vectors of 95_test_vectors.md (the section stands in each comment), and a witness for the hypotheses
of every obligation. -/

namespace Sys2Proof.Tests

open Sys2Proof Sys2Proof.Machine

/-! ## Helpers -/

/-- The start state of the vectors (95_test_vectors.md section 0). -/
def start : State := State.reset

/-- The state with flags from a status byte (R28). -/
def flags (b : Byte) (s : State) : State := s.setP (updateFromByte b)

/-- The state with bytes in plain memory from an address on. -/
def poke (a : Addr) (bytes : List Byte) (s : State) : State := { s with bus := Bus.placeBytes bytes a s.bus }

/-- The state with windows. -/
def windows (rs : List Region) (s : State) : State := { s with bus := { s.bus with regions := rs } }

/-- The state after one step on the bytes at `PC`. -/
def ran (bytes : List Byte) (s : State) : State :=
  match step (s.placeProgram bytes) with
  | .next t => t
  | .fault _ => s
  | .refused _ => s

/-- The bus cycles of a run, oldest first. -/
def trace (s : State) : List BusCycle := s.bus.log.reverse

/-- Whether a meaning answers a next state. -/
def goesOn (o : Answer) : Bool :=
  match o with
  | .next _ => true
  | .fault _ => false
  | .refused _ => false

/-! ## Ill-formed byte strings, one for each check of `WellFormed` -/

theorem test_wf_no_opcode_byte : bytesWellFormed [] = false := by decide

theorem test_wf_unknown_opcode : bytesWellFormed [0x02#8] = false := by decide

theorem test_wf_too_short : bytesWellFormed [0xAD#8, 0x34#8] = false := by decide

theorem test_wf_too_long : bytesWellFormed [0xA9#8, 0x05#8, 0x00#8] = false := by decide

theorem test_wf_accepts :
    bytesWellFormed [0xAD#8, 0x34#8, 0x12#8] = true ∧ bytesWellFormed [0x00#8] = true := by decide

/-! ## Decoding: words written out bit by bit from the encodings (30_encoding.md R60 to R65) -/

theorem test_decode_adc : decodeTableWord 16 0b0101000001101001 = some (.adcImm 0x50#8) := by decide

theorem test_decode_sbc : decodeTableWord 24 0b000100100011010011111101 = some (.sbcAbsX 0x1234#16) := by decide

theorem test_decode_shift : decodeTableWord 8 0b00001010 = some (.aslAcc) := by decide

theorem test_decode_shift_memory :
    decodeTableWord 24 0b000100100011010001001110 = some (.lsrAbs 0x1234#16) := by decide

theorem test_decode_rotate : decodeTableWord 16 0b0001000001110110 = some (.rorZpX 0x10#8) := by decide

theorem test_decode_compare : decodeTableWord 16 0b0100000011010001 = some (.cmpIndY 0x40#8) := by decide

theorem test_decode_incdec : decodeTableWord 24 0b000100001111111111111110 = some (.incAbsX 0x10FF#16) := by decide

theorem test_decode_logic : decodeTableWord 16 0b0010000000100001 = some (.andIndX 0x20#8) := by decide

theorem test_decode_bit : decodeTableWord 16 0b0001000000100100 = some (.bitZp 0x10#8) := by decide

theorem test_decode_load : decodeTableWord 16 0b0001000010110110 = some (.ldxZpY 0x10#8) := by decide

theorem test_decode_store : decodeTableWord 24 0b001000000000000010011001 = some (.staAbsY 0x2000#16) := by decide

theorem test_decode_transfer : decodeTableWord 8 0b10101010 = some (.tax) := by decide

theorem test_decode_branch : decodeTableWord 16 0b1111100011010000 = some (.bne 0xF8#8) := by decide

theorem test_decode_jump : decodeTableWord 24 0b000000101111111101101100 = some (.jmpInd 0x02FF#16) := by decide

theorem test_decode_call : decodeTableWord 24 0b000001100001000000100000 = some (.jsr 0x0610#16) := by decide

theorem test_decode_return : decodeTableWord 8 0b01000000 = some (.rti) := by decide

theorem test_decode_stack : decodeTableWord 8 0b00001000 = some (.php) := by decide

theorem test_decode_flag : decodeTableWord 8 0b10111000 = some (.clv) := by decide

theorem test_decode_halt : decodeTableWord 8 0b00000000 = some (.halt) := by decide

theorem test_decode_rejects_by_name :
    decode [0x80#8, 0x12#8] = .error (.unknownOpcode 0x80#8) ∧ decode [0xAD#8, 0x34#8] = .error (.truncated 0xAD#8) ∧
    decode [] = .error .noBytes := ⟨rfl, rfl, rfl⟩

theorem test_withFetchWord_runs :
    (match step (start.withFetchWord 16 0x05A9) with
      | .next t => t
      | .fault _ => start
      | .refused _ => start) = ran [0xA9#8, 0x05#8, 0x00#8] start := by decide

/-! ## ALU vectors (95_test_vectors.md section 2.1) -/

theorem test_adc_overflow :
    (fun t : State => (t.a, statusByte t.p, t.cycles)) (ran [0x69#8, 0x50#8] { start with a := 0x50#8 }) = (0xA0#8, 0xE0#8, 2) :=
  by decide

theorem test_adc_ignores_decimal :
    (fun t : State => (t.a, statusByte t.p, t.cycles)) (ran [0x69#8, 0x01#8] (flags 0x08#8 { start with a := 0x09#8 })) = (0x0A#8, 0x28#8, 2) :=
  by decide

theorem test_sbc_borrow :
    (fun t : State => (t.a, statusByte t.p, t.cycles)) (ran [0xE9#8, 0x05#8] { start with a := 0x05#8 }) = (0xFF#8, 0xA0#8, 2) :=
  by decide

theorem test_sbc_overflow :
    (fun t : State => (t.a, statusByte t.p, t.cycles)) (ran [0xE9#8, 0x01#8] (flags 0x01#8 { start with a := 0x80#8 })) = (0x7F#8, 0x61#8, 2) :=
  by decide

theorem test_asl_acc :
    (fun t : State => (t.a, statusByte t.p, t.cycles)) (ran [0x0A#8] { start with a := 0x80#8 }) = (0x00#8, 0x23#8, 2) :=
  by decide

theorem test_lsr_acc :
    (fun t : State => (t.a, statusByte t.p, t.cycles)) (ran [0x4A#8] { start with a := 0x01#8 }) = (0x00#8, 0x23#8, 2) :=
  by decide

theorem test_rol_acc :
    (fun t : State => (t.a, statusByte t.p, t.cycles)) (ran [0x2A#8] (flags 0x01#8 { start with a := 0x40#8 })) = (0x81#8, 0xA0#8, 2) :=
  by decide

theorem test_ror_acc :
    (fun t : State => (t.a, statusByte t.p, t.cycles)) (ran [0x6A#8] (flags 0x01#8 { start with a := 0x02#8 })) = (0x81#8, 0xA0#8, 2) :=
  by decide

theorem test_cmp_borrow :
    (fun t : State => (t.a, statusByte t.p, t.cycles)) (ran [0xC9#8, 0xFF#8] { start with a := 0x01#8 }) = (0x01#8, 0x20#8, 2) :=
  by decide

theorem test_cpx_equal :
    (fun t : State => (t.x, statusByte t.p, t.cycles)) (ran [0xE0#8, 0x05#8] { start with x := 0x05#8 }) = (0x05#8, 0x23#8, 2) :=
  by decide

theorem test_cpy :
    (fun t : State => (t.y, statusByte t.p, t.cycles)) (ran [0xC0#8, 0x01#8] { start with y := 0xFF#8 }) = (0xFF#8, 0xA1#8, 2) :=
  by decide

theorem test_inx_wraps :
    (fun t : State => (t.x, statusByte t.p, t.cycles)) (ran [0xE8#8] { start with x := 0xFF#8 }) = (0x00#8, 0x22#8, 2) :=
  by decide

theorem test_iny :
    (fun t : State => (t.y, statusByte t.p, t.cycles)) (ran [0xC8#8] { start with y := 0x7F#8 }) = (0x80#8, 0xA0#8, 2) :=
  by decide

theorem test_dex_wraps :
    (fun t : State => (t.x, statusByte t.p, t.cycles)) (ran [0xCA#8] { start with x := 0x00#8 }) = (0xFF#8, 0xA0#8, 2) :=
  by decide

theorem test_dey :
    (fun t : State => (t.y, statusByte t.p, t.cycles)) (ran [0x88#8] { start with y := 0x01#8 }) = (0x00#8, 0x22#8, 2) :=
  by decide

theorem test_and :
    (fun t : State => (t.a, statusByte t.p, t.cycles)) (ran [0x29#8, 0x3C#8] { start with a := 0xF0#8 }) = (0x30#8, 0x20#8, 2) :=
  by decide

theorem test_ora :
    (fun t : State => (t.a, statusByte t.p, t.cycles)) (ran [0x09#8, 0x80#8] { start with a := 0x01#8 }) = (0x81#8, 0xA0#8, 2) :=
  by decide

theorem test_eor :
    (fun t : State => (t.a, statusByte t.p, t.cycles)) (ran [0x49#8, 0xFF#8] { start with a := 0x0F#8 }) = (0xF0#8, 0xA0#8, 2) :=
  by decide

theorem test_inc_wraps :
    (fun t : State => (t.byteAt 0x0010#16, statusByte t.p, t.cycles))
      (ran [0xE6#8, 0x10#8] (poke 0x0010#16 [0xFF#8] start)) = (0x00#8, 0x22#8, 5) := by decide

theorem test_dec :
    (fun t : State => (t.byteAt 0x1234#16, statusByte t.p, t.cycles))
      (ran [0xCE#8, 0x34#8, 0x12#8] (poke 0x1234#16 [0x80#8] start)) = (0x7F#8, 0x20#8, 6) := by decide

theorem test_bit :
    (fun t : State => (t.byteAt 0x0010#16, statusByte t.p, t.cycles))
      (ran [0x24#8, 0x10#8] (poke 0x0010#16 [0xFF#8] start)) = (0xFF#8, 0xE2#8, 3) := by decide

theorem test_asl_memory :
    (fun t : State => (t.byteAt 0x0010#16, statusByte t.p, t.cycles))
      (ran [0x06#8, 0x10#8] (poke 0x0010#16 [0x81#8] start)) = (0x02#8, 0x21#8, 5) := by decide

theorem test_ror_memory :
    (fun t : State => (t.byteAt 0x0011#16, statusByte t.p, t.cycles))
      (ran [0x76#8, 0x10#8] (poke 0x0011#16 [0x01#8] (flags 0x01#8 { start with x := 0x01#8 }))) = (0x80#8, 0xA1#8, 6) :=
  by decide

theorem test_rmw_trace :
    trace (ran [0xFE#8, 0xFF#8, 0x10#8] (poke 0x1100#16 [0xC1#8] { start with x := 0x01#8 })) =
      [.read 0x0600#16 0xFE#8, .read 0x0601#16 0xFF#8, .read 0x0602#16 0x10#8, .read 0x1000#16 0x00#8,
        .read 0x1100#16 0xC1#8, .write 0x1100#16 0xC1#8, .write 0x1100#16 0xC2#8] := by decide

/-! ## Loads, stores and addressing (section 2.2) -/

theorem test_lda_zpx_wraps :
    (fun t : State => (t.a, statusByte t.p, t.cycles)) (ran [0xB5#8, 0xF0#8] (poke 0x0110#16 [0x99#8] (poke 0x0010#16 [0x5A#8] { start with x := 0x20#8 }))) = (0x5A#8, 0x20#8, 4) :=
  by decide

theorem test_ldx_zpy :
    (fun t : State => (t.x, statusByte t.p, t.cycles)) (ran [0xB6#8, 0x10#8] (poke 0x0015#16 [0x80#8] { start with y := 0x05#8 })) = (0x80#8, 0xA0#8, 4) :=
  by decide

theorem test_lda_absx_carry :
    (fun t : State => (t.a, statusByte t.p, t.cycles)) (ran [0xBD#8, 0xFF#8, 0xFF#8] (poke 0xFF00#16 [0x55#8] (poke 0x0000#16 [0x44#8] { start with x := 0x01#8 }))) = (0x44#8, 0x20#8, 5) :=
  by decide

theorem test_ldy_absx_no_carry :
    (fun t : State => (t.y, statusByte t.p, t.cycles)) (ran [0xBC#8, 0x00#8, 0x10#8] (poke 0x1005#16 [0x11#8] { start with x := 0x05#8 })) = (0x11#8, 0x20#8, 4) :=
  by decide

theorem test_lda_indx_pointer_wraps :
    (fun t : State => (t.a, statusByte t.p, t.cycles)) (ran [0xA1#8, 0xFB#8] (poke 0x3100#16 [0x67#8] (poke 0x0100#16 [0x32#8] (poke 0x00FF#16 [0x00#8] (poke 0x0000#16 [0x31#8] { start with x := 0x04#8 }))))) = (0x67#8, 0x20#8, 6) :=
  by decide

theorem test_lda_indy_carry :
    (fun t : State => (t.a, statusByte t.p, t.cycles)) (ran [0xB1#8, 0x40#8] (poke 0x3108#16 [0x69#8] (poke 0x0040#16 [0xF8#8, 0x30#8] { start with y := 0x10#8 }))) = (0x69#8, 0x20#8, 6) :=
  by decide

theorem test_sta_absx_fixed :
    (fun t : State => (t.byteAt 0x2110#16, statusByte t.p, t.cycles))
      (ran [0x9D#8, 0xF0#8, 0x20#8] { start with a := 0x77#8, x := 0x20#8 }) = (0x77#8, 0x20#8, 5) := by decide

theorem test_sta_indy_fixed :
    (fun t : State => (t.byteAt 0x3010#16, statusByte t.p, t.cycles))
      (ran [0x91#8, 0x40#8] (poke 0x0040#16 [0x00#8, 0x30#8] { start with a := 0x7E#8, y := 0x10#8 })) = (0x7E#8, 0x20#8, 6) :=
  by decide

theorem test_stx_zpy_wraps :
    (fun t : State => (t.byteAt 0x0001#16, statusByte t.p, t.cycles))
      (ran [0x96#8, 0xFF#8] { start with x := 0x3C#8, y := 0x02#8 }) = (0x3C#8, 0x20#8, 4) := by decide

theorem test_sty_abs :
    (fun t : State => (t.byteAt 0x0200#16, statusByte t.p, t.cycles))
      (ran [0x8C#8, 0x00#8, 0x02#8] { start with y := 0x9A#8 }) = (0x9A#8, 0x20#8, 4) := by decide

theorem test_tax :
    (fun t : State => (t.x, statusByte t.p, t.cycles)) (ran [0xAA#8] { start with a := 0xFF#8 }) = (0xFF#8, 0xA0#8, 2) :=
  by decide

theorem test_tay :
    (fun t : State => (t.y, statusByte t.p, t.cycles)) (ran [0xA8#8] { start with a := 0x80#8 }) = (0x80#8, 0xA0#8, 2) :=
  by decide

theorem test_txa :
    (fun t : State => (t.a, statusByte t.p, t.cycles)) (ran [0x8A#8] { start with a := 0x33#8 }) = (0x00#8, 0x22#8, 2) :=
  by decide

theorem test_tya :
    (fun t : State => (t.a, statusByte t.p, t.cycles)) (ran [0x98#8] { start with y := 0x7F#8 }) = (0x7F#8, 0x20#8, 2) :=
  by decide

theorem test_tsx :
    (fun t : State => (t.x, statusByte t.p, t.cycles)) (ran [0xBA#8] start) = (0xFD#8, 0xA0#8, 2) := by decide

theorem test_txs :
    (fun t : State => (t.sp, statusByte t.p, t.cycles)) (ran [0x9A#8] start) = (0x00#8, 0x20#8, 2) := by decide

theorem test_no_access_dummy :
    trace (ran [0xB5#8, 0xF0#8] (poke 0x0010#16 [0x5A#8] { start with x := 0x20#8, params := { start.params with internalAccess := .noAccess } })) =
      [.read 0x0600#16 0xB5#8, .read 0x0601#16 0xF0#8, .idle, .read 0x0010#16 0x5A#8] :=
  by decide

/-! ## Control flow (sections 2.3 and 2.4) -/

theorem test_jmp :
    (fun t : State => (t.pc, t.sp, t.cycles)) (ran [0x4C#8, 0x34#8, 0x12#8] start) = (0x1234#16, 0xFD#8, 3) := by decide

theorem test_jmp_indirect_page_bug :
    (fun t : State => (t.pc, t.sp, t.cycles)) (ran [0x6C#8, 0xFF#8, 0x02#8] (poke 0x0300#16 [0x08#8] (poke 0x0200#16 [0x07#8] (poke 0x02FF#16 [0x00#8] start)))) = (0x0700#16, 0xFD#8, 5) :=
  by decide

theorem test_jsr_wraps :
    (fun t : State => (t.pc, t.sp, t.cycles)) (ran [0x20#8, 0x10#8, 0x06#8] { start with sp := 0x00#8 }) = (0x0610#16, 0xFE#8, 6) :=
  by decide

theorem test_jsr_trace :
    trace (ran [0x20#8, 0x10#8, 0x06#8] start) =
      [.read 0x0600#16 0x20#8, .read 0x0601#16 0x10#8, .read 0x01FD#16 0x00#8, .write 0x01FD#16 0x06#8,
        .write 0x01FC#16 0x02#8, .read 0x0602#16 0x06#8] := by decide

theorem test_rts :
    (fun t : State => (t.pc, t.sp, t.cycles)) (ran [0x60#8] (poke 0x01FC#16 [0xFF#8, 0xFF#8] { start with sp := 0xFB#8 })) = (0x0000#16, 0xFD#8, 6) :=
  by decide

theorem test_rts_wraps :
    (fun t : State => (t.pc, t.sp, t.cycles)) (ran [0x60#8] (poke 0x0100#16 [0xFF#8, 0x12#8] { start with sp := 0xFF#8 })) = (0x1300#16, 0x01#8, 6) :=
  by decide

theorem test_rti :
    (fun t : State => (t.pc, t.sp, t.cycles)) (ran [0x40#8] (poke 0x01FB#16 [0xC3#8, 0x00#8, 0x80#8] { start with sp := 0xFA#8 })) = (0x8000#16, 0xFD#8, 6) :=
  by decide

theorem test_rti_flags :
    statusByte (ran [0x40#8] (poke 0x01FB#16 [0xC3#8, 0x00#8, 0x80#8] { start with sp := 0xFA#8 })).p = 0xE3#8 :=
  by decide

theorem test_bpl :
    (fun t : State => (t.pc, t.sp, t.cycles)) (ran [0x10#8, 0x7F#8] (flags 0x00#8 { start with pc := 0x0680#16 })) = (0x0701#16, 0xFD#8, 4) :=
  by decide

theorem test_bmi :
    (fun t : State => (t.pc, t.sp, t.cycles)) (ran [0x30#8, 0x7F#8] (flags 0x00#8 { start with pc := 0x0680#16 })) = (0x0682#16, 0xFD#8, 2) :=
  by decide

theorem test_bvc :
    (fun t : State => (t.pc, t.sp, t.cycles)) (ran [0x50#8, 0x7F#8] (flags 0x40#8 { start with pc := 0x0680#16 })) = (0x0682#16, 0xFD#8, 2) :=
  by decide

theorem test_bvs :
    (fun t : State => (t.pc, t.sp, t.cycles)) (ran [0x70#8, 0x7F#8] (flags 0x40#8 { start with pc := 0x0680#16 })) = (0x0701#16, 0xFD#8, 4) :=
  by decide

theorem test_bcc :
    (fun t : State => (t.pc, t.sp, t.cycles)) (ran [0x90#8, 0x7F#8] (flags 0x01#8 { start with pc := 0x0680#16 })) = (0x0682#16, 0xFD#8, 2) :=
  by decide

theorem test_bcs :
    (fun t : State => (t.pc, t.sp, t.cycles)) (ran [0xB0#8, 0x7F#8] (flags 0x01#8 { start with pc := 0x0680#16 })) = (0x0701#16, 0xFD#8, 4) :=
  by decide

theorem test_bne :
    (fun t : State => (t.pc, t.sp, t.cycles)) (ran [0xD0#8, 0x7F#8] (flags 0x00#8 { start with pc := 0x0680#16 })) = (0x0701#16, 0xFD#8, 4) :=
  by decide

theorem test_beq :
    (fun t : State => (t.pc, t.sp, t.cycles)) (ran [0xF0#8, 0x7F#8] (flags 0x00#8 { start with pc := 0x0680#16 })) = (0x0682#16, 0xFD#8, 2) :=
  by decide

theorem test_branch_backward :
    (fun t : State => (t.pc, t.sp, t.cycles)) (ran [0x30#8, 0xFC#8] (flags 0x80#8 { start with pc := 0x0700#16 })) = (0x06FE#16, 0xFD#8, 4) :=
  by decide

/-! ## Stack, flags and the halt byte (sections 2.5 to 2.7) -/

theorem test_pha :
    (fun t : State => (t.byteAt 0x0100#16, statusByte t.p, t.cycles))
      (ran [0x48#8] { start with a := 0x42#8, sp := 0x00#8 }) = (0x42#8, 0x20#8, 3) := by decide

theorem test_php :
    (fun t : State => (t.byteAt 0x01FD#16, statusByte t.p, t.cycles))
      (ran [0x08#8] (flags 0x84#8 start)) = (0xB4#8, 0xA4#8, 3) := by decide

theorem test_pla_wraps :
    (fun t : State => (t.a, statusByte t.p, t.cycles)) (ran [0x68#8] (poke 0x0100#16 [0x80#8] { start with sp := 0xFF#8 })) = (0x80#8, 0xA0#8, 4) :=
  by decide

theorem test_plp :
    (fun t : State => (t.sp, statusByte t.p, t.cycles)) (ran [0x28#8] (poke 0x01FB#16 [0xFF#8] { start with sp := 0xFA#8 })) = (0xFB#8, 0xEF#8, 4) :=
  by decide

theorem test_clc :
    (fun t : State => (t.a, statusByte t.p, t.cycles)) (ran [0x18#8] (flags 0x01#8 start)) = (0x00#8, 0x20#8, 2) :=
  by decide

theorem test_sec :
    (fun t : State => (t.a, statusByte t.p, t.cycles)) (ran [0x38#8] (flags 0x00#8 start)) = (0x00#8, 0x21#8, 2) :=
  by decide

theorem test_cli :
    (fun t : State => (t.a, statusByte t.p, t.cycles)) (ran [0x58#8] (flags 0x04#8 start)) = (0x00#8, 0x20#8, 2) :=
  by decide

theorem test_sei :
    (fun t : State => (t.a, statusByte t.p, t.cycles)) (ran [0x78#8] (flags 0x00#8 start)) = (0x00#8, 0x24#8, 2) :=
  by decide

theorem test_cld :
    (fun t : State => (t.a, statusByte t.p, t.cycles)) (ran [0xD8#8] (flags 0x08#8 start)) = (0x00#8, 0x20#8, 2) :=
  by decide

theorem test_sed :
    (fun t : State => (t.a, statusByte t.p, t.cycles)) (ran [0xF8#8] (flags 0x00#8 start)) = (0x00#8, 0x28#8, 2) :=
  by decide

theorem test_clv :
    (fun t : State => (t.a, statusByte t.p, t.cycles)) (ran [0xB8#8] (flags 0x40#8 start)) = (0x00#8, 0x20#8, 2) :=
  by decide

theorem test_nop :
    (fun t : State => (t.a, statusByte t.p, t.cycles)) (ran [0xEA#8] (flags 0x00#8 start)) = (0x00#8, 0x20#8, 2) :=
  by decide

theorem test_halt :
    (fun t : State => (t.e, t.pc, t.cycles)) (ran [0x00#8] start) = (.done (.unknownOpcode 0x00#8), 0x0601#16, 1) :=
  by decide

theorem test_halted_step : step { start with e := .done (.unknownOpcode 0x00#8) } = .fault .halted := rfl

/-! ## Bus faults (section 2.8) -/

theorem test_rmw_write_fault :
    (fun t : State => (t.e, t.byteAt 0x8000#16, t.pc, statusByte t.p, t.cycles))
      (ran [0xEE#8, 0x00#8, 0x80#8] (windows [{ base := 0x8000, size := 0x8000, kind := .readOnly }] (poke 0x8000#16 [0x7F#8] start))) =
      (.done (.busFault .write 0x8000#16), 0x7F#8, 0x0603#16, 0x20#8, 5) :=
  by decide

theorem test_pull_fault :
    (fun t : State => (t.e, t.sp, t.a, t.cycles))
      (ran [0x68#8] (windows [{ base := 0x01FD, size := 1, kind := .unmapped }] { start with sp := 0xFC#8 })) =
      (.done (.busFault .read 0x01FD#16), 0xFC#8, 0x00#8, 4) := by decide

theorem test_jsr_push_fault :
    (fun t : State => (t.e, t.sp, t.byteAt 0x01FD#16, t.cycles))
      (ran [0x20#8, 0x10#8, 0x06#8] (windows [{ base := 0x01FC, size := 1, kind := .readOnly }] start)) =
      (.done (.busFault .write 0x01FC#16), 0xFC#8, 0x06#8, 5) := by decide

theorem test_cycles_of_one_instruction :
    (match instructionByCycles ((poke 0x1100#16 [0xC1#8] { start with x := 0x01#8 }).placeProgram [0xFE#8, 0xFF#8, 0x10#8]) with
      | .next t => t
      | .fault _ => start
      | .refused _ => start) = ran [0xFE#8, 0xFF#8, 0x10#8] (poke 0x1100#16 [0xC1#8] { start with x := 0x01#8 }) :=
  by decide

theorem test_memory_of_reset_is_canonical : Memory.wf State.reset.bus.mem = true := by decide

/-! ## Witnesses: the hypotheses of each obligation, met together -/

/-- A window that no access passes, over the operand at $0010 and the stack byte at $01FD. -/
def holes : State := windows [{ base := 0x0010, size := 1, kind := .unmapped },
  { base := 0x01FD, size := 1, kind := .unmapped }, { base := 0x8000, size := 0x8000, kind := .readOnly },
  { base := 0x7000, size := 1, kind := .writeOnly }] start

def midHandler : Handler where
  op := 0xBD#8
  t := 5
  lo := 0x00#8
  hi := 0x10#8
  ptr := 0x00#8
  data := 0x00#8
  carry := true

/-- A mid-instruction state: LDA absolute,X before its last cycle. -/
def midway : State := start.setE (.processing midHandler)


theorem witness_EncodeThenDecode :
    Instr.wellFormed (.ldaAbs 0xFFFF#16) = true ∧ Instr.wellFormed .halt = true := by decide

theorem witness_DecodeThenEncode : decode [0x6C#8, 0xFF#8, 0x02#8, 0x99#8] = .ok (.jmpInd 0x02FF#16, [0x99#8]) := rfl

theorem witness_WellFormedBytesAreEncodings :
    bytesWellFormed [0xFF#8] = false ∧ encode (.bne 0x80#8) = [0xD0#8, 0x80#8] := by decide

theorem witness_OpcodeFetchCycle_fails :
    holes.rst = false ∧ holes.e = .fetchOpcode ∧ { holes with pc := 0x7000#16 }.bus.readAnswer 0x7000#16 = none :=
  by decide

theorem witness_OpcodeFetchCycle_known :
    start.rst = false ∧ start.e = .fetchOpcode ∧
    (poke 0x0600#16 [0xFE#8] start).bus.readAnswer 0x0600#16 = some 0xFE#8 ∧ (dispatch 0xFE#8).isSome = true :=
  by decide

theorem witness_OpcodeFetchCycle_unknown :
    start.bus.readAnswer start.pc = some 0x00#8 ∧ (dispatch 0x00#8).isNone = true := by decide

theorem witness_UnknownOpcodeStops :
    0x02#8 ∈ unknownOpcodes ∧ 0xFF#8 ∈ unknownOpcodes ∧ unknownOpcodes.length = 105 ∧ start.rst = false ∧
    start.e = .fetchOpcode ∧ (poke 0x0600#16 [0xFF#8] start).bus.readAnswer 0x0600#16 = some 0xFF#8 := by decide

theorem witness_HaltByteStops :
    start.rst = false ∧ start.e = .fetchOpcode ∧ start.bus.readAnswer start.pc = some 0x00#8 := by decide

/-- Each clause of `DoneHasNoStep`: a bus fault, an unknown opcode, the halt byte. -/
theorem witness_DoneHasNoStep :
    (takeFatal (.busFault .write 0xFFFF#16) start).rst = false ∧
    (takeFatal (.busFault .write 0xFFFF#16) start).e = .done (.busFault .write 0xFFFF#16) ∧
    (takeFatal (.unknownOpcode 0xFF#8) start).e = .done (.unknownOpcode 0xFF#8) ∧ 0xFF#8 ≠ 0x00#8 ∧
    (takeFatal (.unknownOpcode 0x00#8) start).rst = false ∧
    (takeFatal (.unknownOpcode 0x00#8) start).e = .done (.unknownOpcode 0x00#8) := by decide

theorem witness_AssertedReset :
    { midway with rst := true }.rst = true ∧ (takeFatal (.unknownOpcode 0xFF#8) { start with rst := true }).e = .done (.unknownOpcode 0xFF#8) ∧
    goesOn (step (takeFatal (.unknownOpcode 0xFF#8) { start with rst := true })) = true :=
  by decide

theorem witness_OutputPorts :
    start.params.cycleCounterWidth = none ∧ ({ start.params with cycleCounterWidth := some 32 } : Config.Params).cycleCounterWidth = some 32 :=
  by decide

theorem witness_InstructionKeepsTheRest : goesOn (exec (.adcIndY 0xFF#8) start) = true := rfl

theorem witness_StepRunsDecodedInstruction :
    (start.placeProgram [0x20#8, 0x10#8, 0x06#8]).holds start.pc (encode (.jsr 0x0610#16)) ∧
    State.grantsAll (start.placeProgram [0x20#8, 0x10#8, 0x06#8])
      (fetchCyclesAt start.pc (Instr.fetchedBytes (.jsr 0x0610#16))) ∧ start.rst = false ∧ start.e = .fetchOpcode :=
  by refine ⟨⟨rfl, rfl, rfl, trivial⟩, ?_, rfl, rfl⟩; unfold State.grantsAll; decide

theorem witness_CyclesMakeTheStep : start.rst = false ∧ start.e = .fetchOpcode := by decide

theorem witness_reset_invariant : State.Inv start := ⟨rfl, trivial, Nat.le_refl _⟩

theorem witness_StepKeepsInvariant : State.Inv start ∧ ∃ t, step start = .next t := ⟨witness_reset_invariant, _, rfl⟩

theorem witness_midway_invariant : State.Inv midway := ⟨rfl, ⟨_, rfl, by decide, by decide⟩, Nat.le_refl _⟩

theorem witness_CycleKeepsInvariant :
    State.Inv midway ∧ goesOn (cycle midway) = true := ⟨witness_midway_invariant, by decide⟩

theorem witness_StepProgress : State.Inv midway ∧ ∀ r, midway.e ≠ .done r := ⟨witness_midway_invariant, nofun⟩

theorem witness_EveryCycleCounts :
    State.Inv midway ∧ midway.rst = false ∧ ∀ r, midway.e ≠ .done r := ⟨witness_midway_invariant, rfl, nofun⟩

theorem witness_BusAccesses :
    start.bus.readAnswer 0xFFFF#16 = some 0x00#8 ∧ holes.bus.readAnswer 0x0010#16 = none ∧
    start.bus.writeAnswer 0xFFFF#16 0x01#8 = some [(0xFFFF, 0x01#8)] ∧ holes.bus.writeAnswer 0x8000#16 0x01#8 = none :=
  by decide

theorem witness_StackLaw :
    start.bus.mem.wf = true ∧ ∀ sp : Byte, start.bus.canRead (stackAddr sp) = true ∧ start.bus.canWrite (stackAddr sp) = true :=
  ⟨rfl, fun _ => ⟨rfl, rfl⟩⟩

theorem witness_LoadResults_lda :
    ldaForm (.mem (.absX 0x10FF#16)) = some (0xBD#8, .ldaAbsX 0x10FF#16) ∧
    State.grantsAll { start with x := 0x01#8, y := 0xFF#8 } (ReadOperand.cycles (.mem (.absX 0x10FF#16)) { start with x := 0x01#8, y := 0xFF#8 }) :=
  by unfold State.grantsAll; decide

theorem witness_LoadResults_ldx :
    ldxForm (.mem (.absY 0xFFFF#16)) = some (0xBE#8, .ldxAbsY 0xFFFF#16) ∧
    State.grantsAll { start with x := 0x01#8, y := 0xFF#8 } (ReadOperand.cycles (.mem (.absY 0xFFFF#16)) { start with x := 0x01#8, y := 0xFF#8 }) :=
  by unfold State.grantsAll; decide

theorem witness_LoadResults_ldy :
    ldyForm (.imm 0x00#8) = some (0xA0#8, .ldyImm 0x00#8) ∧
    State.grantsAll { start with x := 0x01#8, y := 0xFF#8 } (ReadOperand.cycles (.imm 0x00#8) { start with x := 0x01#8, y := 0xFF#8 }) :=
  by unfold State.grantsAll; decide

theorem witness_AdcResult_adc :
    adcForm (.mem (.indY 0xFF#8)) = some (0x71#8, .adcIndY 0xFF#8) ∧
    State.grantsAll { start with x := 0x01#8, y := 0xFF#8 } (ReadOperand.cycles (.mem (.indY 0xFF#8)) { start with x := 0x01#8, y := 0xFF#8 }) :=
  by unfold State.grantsAll; decide

theorem witness_SbcResult_sbc :
    sbcForm (.mem (.indX 0xFF#8)) = some (0xE1#8, .sbcIndX 0xFF#8) ∧
    State.grantsAll { start with x := 0x01#8, y := 0xFF#8 } (ReadOperand.cycles (.mem (.indX 0xFF#8)) { start with x := 0x01#8, y := 0xFF#8 }) :=
  by unfold State.grantsAll; decide

theorem witness_LogicResults_and :
    andForm (.mem (.zpX 0xFF#8)) = some (0x35#8, .andZpX 0xFF#8) ∧
    State.grantsAll { start with x := 0x01#8, y := 0xFF#8 } (ReadOperand.cycles (.mem (.zpX 0xFF#8)) { start with x := 0x01#8, y := 0xFF#8 }) :=
  by unfold State.grantsAll; decide

theorem witness_LogicResults_ora :
    oraForm (.mem (.absY 0xFFFF#16)) = some (0x19#8, .oraAbsY 0xFFFF#16) ∧
    State.grantsAll { start with x := 0x01#8, y := 0xFF#8 } (ReadOperand.cycles (.mem (.absY 0xFFFF#16)) { start with x := 0x01#8, y := 0xFF#8 }) :=
  by unfold State.grantsAll; decide

theorem witness_LogicResults_eor :
    eorForm (.imm 0xFF#8) = some (0x49#8, .eorImm 0xFF#8) ∧
    State.grantsAll { start with x := 0x01#8, y := 0xFF#8 } (ReadOperand.cycles (.imm 0xFF#8) { start with x := 0x01#8, y := 0xFF#8 }) :=
  by unfold State.grantsAll; decide

theorem witness_BitResult_bit :
    bitForm (.mem (.abs 0xFFFF#16)) = some (0x2C#8, .bitAbs 0xFFFF#16) ∧
    State.grantsAll { start with x := 0x01#8, y := 0xFF#8 } (ReadOperand.cycles (.mem (.abs 0xFFFF#16)) { start with x := 0x01#8, y := 0xFF#8 }) :=
  by unfold State.grantsAll; decide

theorem witness_CompareResults_cmp :
    cmpForm (.mem (.indY 0x00#8)) = some (0xD1#8, .cmpIndY 0x00#8) ∧
    State.grantsAll { start with x := 0x01#8, y := 0xFF#8 } (ReadOperand.cycles (.mem (.indY 0x00#8)) { start with x := 0x01#8, y := 0xFF#8 }) :=
  by unfold State.grantsAll; decide

theorem witness_CompareResults_cpx :
    cpxForm (.mem (.zp 0xFF#8)) = some (0xE4#8, .cpxZp 0xFF#8) ∧
    State.grantsAll { start with x := 0x01#8, y := 0xFF#8 } (ReadOperand.cycles (.mem (.zp 0xFF#8)) { start with x := 0x01#8, y := 0xFF#8 }) :=
  by unfold State.grantsAll; decide

theorem witness_CompareResults_cpy :
    cpyForm (.imm 0x00#8) = some (0xC0#8, .cpyImm 0x00#8) ∧
    State.grantsAll { start with x := 0x01#8, y := 0xFF#8 } (ReadOperand.cycles (.imm 0x00#8) { start with x := 0x01#8, y := 0xFF#8 }) :=
  by unfold State.grantsAll; decide

theorem witness_StoreResults_sta :
    staForm (.indY 0xFF#8) = some (0x91#8, .staIndY 0xFF#8) ∧
    State.grantsAll { start with x := 0x01#8, y := 0xFF#8 } (MemOperand.storeCycles (.indY 0xFF#8) ({ start with x := 0x01#8, y := 0xFF#8 } : State).a { start with x := 0x01#8, y := 0xFF#8 }) :=
  by unfold State.grantsAll; decide

theorem witness_StoreResults_stx :
    stxForm (.zpY 0xFF#8) = some (0x96#8, .stxZpY 0xFF#8) ∧
    State.grantsAll { start with x := 0x01#8, y := 0xFF#8 } (MemOperand.storeCycles (.zpY 0xFF#8) ({ start with x := 0x01#8, y := 0xFF#8 } : State).x { start with x := 0x01#8, y := 0xFF#8 }) :=
  by unfold State.grantsAll; decide

theorem witness_StoreResults_sty :
    styForm (.abs 0xFFFF#16) = some (0x8C#8, .styAbs 0xFFFF#16) ∧
    State.grantsAll { start with x := 0x01#8, y := 0xFF#8 } (MemOperand.storeCycles (.abs 0xFFFF#16) ({ start with x := 0x01#8, y := 0xFF#8 } : State).y { start with x := 0x01#8, y := 0xFF#8 }) :=
  by unfold State.grantsAll; decide

theorem witness_ShiftResults_asl :
    aslForm (.absX 0xFFFF#16) = some (0x1E#8, .aslAbsX 0xFFFF#16) ∧ start.bus.mem.wf = true ∧
    State.grantsAll { start with x := 0x01#8, y := 0xFF#8 } (MemOperand.modifyCycles (.absX 0xFFFF#16) 0x00#8 { start with x := 0x01#8, y := 0xFF#8 }) :=
  by unfold State.grantsAll; decide

theorem witness_ShiftResults_lsr :
    lsrForm (.zpX 0xFF#8) = some (0x56#8, .lsrZpX 0xFF#8) ∧ start.bus.mem.wf = true ∧
    State.grantsAll { start with x := 0x01#8, y := 0xFF#8 } (MemOperand.modifyCycles (.zpX 0xFF#8) 0x00#8 { start with x := 0x01#8, y := 0xFF#8 }) :=
  by unfold State.grantsAll; decide

theorem witness_RotateResults_rol :
    rolForm (.abs 0xFFFF#16) = some (0x2E#8, .rolAbs 0xFFFF#16) ∧ start.bus.mem.wf = true ∧
    State.grantsAll { start with x := 0x01#8, y := 0xFF#8 } (MemOperand.modifyCycles (.abs 0xFFFF#16) 0x01#8 { start with x := 0x01#8, y := 0xFF#8 }) :=
  by unfold State.grantsAll; decide

theorem witness_RotateResults_ror :
    rorForm (.zp 0x00#8) = some (0x66#8, .rorZp 0x00#8) ∧ start.bus.mem.wf = true ∧
    State.grantsAll { start with x := 0x01#8, y := 0xFF#8 } (MemOperand.modifyCycles (.zp 0x00#8) 0x80#8 { start with x := 0x01#8, y := 0xFF#8 }) :=
  by unfold State.grantsAll; decide

theorem witness_MemoryIncDecResults_inc :
    incForm (.absX 0xFFFF#16) = some (0xFE#8, .incAbsX 0xFFFF#16) ∧ start.bus.mem.wf = true ∧
    State.grantsAll { start with x := 0x01#8, y := 0xFF#8 } (MemOperand.modifyCycles (.absX 0xFFFF#16) 0x01#8 { start with x := 0x01#8, y := 0xFF#8 }) :=
  by unfold State.grantsAll; decide

theorem witness_MemoryIncDecResults_dec :
    decForm (.zpX 0xFF#8) = some (0xD6#8, .decZpX 0xFF#8) ∧ start.bus.mem.wf = true ∧
    State.grantsAll { start with x := 0x01#8, y := 0xFF#8 } (MemOperand.modifyCycles (.zpX 0xFF#8) 0xFF#8 { start with x := 0x01#8, y := 0xFF#8 }) :=
  by unfold State.grantsAll; decide

/-- For the accumulator clauses of `ShiftResults` and `RotateResults`, and for `IndexIncDecResults`, `TransferResults` and
`FlagInstructionResults`. -/
theorem witness_implied_instructions :
    State.grantsAll start [start.dummyCycle start.pc] := by unfold State.grantsAll; decide

theorem witness_BranchResults_taken :
    (0x10#8, .bpl 0x80#8, true) ∈ branchForms 0x80#8 start.p ∧ State.grantsAll start [start.dummyCycle 0x0600#16,
    start.dummyCycle 0x0680#16] := by unfold State.grantsAll; decide

theorem witness_BranchResults_not_taken : (0xF0#8, .beq 0x7F#8, false) ∈ branchForms 0x7F#8 start.p := by decide

theorem witness_JmpResults :
    State.grantsAll start [start.readCycleAt 0x02FF#16, start.readCycleAt 0x0200#16] :=
  by unfold State.grantsAll; decide

theorem witness_JsrResult :
    State.grantsAll start [start.dummyCycle 0x01FD#16, .write 0x01FD#16 0x06#8, .write 0x01FC#16 0x00#8,
      .read 0x0600#16 0x00#8] ∧ start.byteAt start.pc = hiByte 0x0010#16 ∧ start.pc ≠ stackAddr start.sp ∧
      start.pc ≠ stackAddr (start.sp - 1#8) := by unfold State.grantsAll; decide

theorem witness_RtsResult_RtiResult :
    State.grantsAll start [start.dummyCycle start.pc, start.dummyCycle (stackAddr start.sp),
      start.readCycleAt 0x01FE#16, start.readCycleAt 0x01FF#16, start.dummyCycle 0x0000#16,
      start.readCycleAt 0x0100#16] := by unfold State.grantsAll; decide

theorem witness_PushResults :
    State.grantsAll start [start.dummyCycle start.pc, .write 0x01FD#16 start.a,
      .write 0x01FD#16 (statusByte start.p ||| 0x30#8)] := by unfold State.grantsAll; decide

theorem witness_PullResults :
    State.grantsAll start [start.dummyCycle start.pc, start.dummyCycle (stackAddr start.sp),
      start.readCycleAt (stackAddr (start.sp + 1#8))] := by unfold State.grantsAll; decide

theorem witness_OperandBusFault_read : ∃ row : Row, Instr.row (.ldaZp 0x10#8) = some row ∧ row.cls = .read ∧
    Mode.memOperand row.mode (encode (.ldaZp 0x10#8)).tail = some (.zp 0x10#8) ∧
    firstCycles row (.zp 0x10#8) holes = [] ++ .read 0x0010#16 0x00#8 :: [] ∧ State.grantsAll holes [] ∧
    holes.bus.denies (.read 0x0010#16 0x00#8) = true ∧ BusCycle.fault (.read 0x0010#16 0x00#8) = some (.busFault .read 0x0010#16) :=
  ⟨_, rfl, rfl, rfl, rfl, by unfold State.grantsAll; decide, rfl, rfl⟩

theorem witness_OperandBusFault_write : ∃ row : Row, Instr.row (.staAbs 0x8000#16) = some row ∧ row.cls = .write ∧
    Mode.memOperand row.mode (encode (.staAbs 0x8000#16)).tail = some (.abs 0x8000#16) ∧
    firstCycles row (.abs 0x8000#16) holes = [] ++ .write 0x8000#16 0x00#8 :: [] ∧ State.grantsAll holes [] ∧
    holes.bus.denies (.write 0x8000#16 0x00#8) = true ∧ BusCycle.fault (.write 0x8000#16 0x00#8) = some (.busFault .write 0x8000#16) :=
  ⟨_, rfl, rfl, rfl, rfl, by unfold State.grantsAll; decide, rfl, rfl⟩

theorem witness_OperandBusFault_modify : ∃ row : Row, Instr.row (.incAbs 0xFFFF#16) = some row ∧ row.cls = .rmw ∧
    Mode.memOperand row.mode (encode (.incAbs 0xFFFF#16)).tail = some (.abs 0xFFFF#16) ∧
    firstCycles row (.abs 0xFFFF#16) holes = [.read 0xFFFF#16 0x00#8] ++ .write 0xFFFF#16 0x00#8 :: [] ∧ State.grantsAll holes [.read 0xFFFF#16 0x00#8] ∧
    holes.bus.denies (.write 0xFFFF#16 0x00#8) = true ∧ BusCycle.fault (.write 0xFFFF#16 0x00#8) = some (.busFault .write 0xFFFF#16) :=
  ⟨_, rfl, rfl, rfl, rfl, by unfold State.grantsAll; decide, rfl, rfl⟩

/-- One window, at one address. -/
def window (a : Nat) (kind : RegionKind) : State := windows [{ base := a, size := 1, kind := kind }] start

/-- Each clause of `StackBusFault`: a push to an unmapped stack byte, JSR's to a read-only one, a pull above `SP`. -/
theorem witness_StackBusFault :
    State.grantsAll holes [holes.dummyCycle holes.pc] ∧
    holes.bus.denies (.write (stackAddr holes.sp) holes.a) = true ∧
    State.grantsAll (window 0x01FD .readOnly) [(window 0x01FD .readOnly).dummyCycle 0x01FD#16] ∧
    (window 0x01FD .readOnly).bus.denies (.write (stackAddr start.sp) (hiByte start.pc)) = true ∧
    State.grantsAll (window 0x01FE .unmapped) [start.dummyCycle start.pc, start.dummyCycle (stackAddr start.sp)] ∧
    (window 0x01FE .unmapped).bus.denies (start.readCycleAt (stackAddr (start.sp + 1#8))) = true := by
  unfold State.grantsAll; decide

/-- Each clause of `LaterStackBusFault`; RTI's third pull wraps to $0100. -/
theorem witness_LaterStackBusFault :
    State.grantsAll (window 0x01FC .unmapped) [start.dummyCycle 0x01FD#16, .write 0x01FD#16 0x06#8] ∧
    (window 0x01FC .unmapped).bus.denies (.write (stackAddr (start.sp - 1#8)) (loByte start.pc)) = true ∧
    State.grantsAll (window 0x01FF .unmapped)
      [start.dummyCycle start.pc, start.dummyCycle 0x01FD#16, start.readCycleAt 0x01FE#16] ∧
    (window 0x01FF .unmapped).bus.denies (start.readCycleAt (stackAddr (start.sp + 2#8))) = true ∧
    State.grantsAll (window 0x0100 .unmapped)
      [start.dummyCycle start.pc, start.dummyCycle 0x01FD#16, start.readCycleAt 0x01FE#16, start.readCycleAt 0x01FF#16] ∧
    (window 0x0100 .unmapped).bus.denies (start.readCycleAt (stackAddr (start.sp + 3#8))) = true := by
  unfold State.grantsAll; decide

/-- Each clause of `JumpTargetBusFault`; the pointer's high byte wraps within its page. -/
theorem witness_JumpTargetBusFault :
    (window 0x02FF .unmapped).bus.denies (start.readCycleAt 0x02FF#16) = true ∧
    State.grantsAll (window 0x0200 .unmapped) [start.readCycleAt 0x02FF#16] ∧
    (window 0x0200 .unmapped).bus.denies
      (start.readCycleAt (joinBytes (hiByte 0x02FF#16) (loByte 0x02FF#16 + 1#8))) = true ∧
    State.grantsAll (window 0x0600 .writeOnly)
      [start.dummyCycle 0x01FD#16, .write 0x01FD#16 0x06#8, .write 0x01FC#16 0x00#8] ∧
    (window 0x0600 .writeOnly).bus.denies (start.readCycleAt start.pc) = true := by
  unfold State.grantsAll; decide

/-- Each clause of `DummyReadBusFault`; BNE crosses a page backwards. -/
theorem witness_DummyReadBusFault :
    start.params.internalAccess = .nmosDummyRead ∧
    ((Instr.row .nop).map Row.cls = some .implied ∧ (window 0x0600 .unmapped).bus.denies (start.readCycleAt start.pc) = true) ∧
    ((Instr.row .rti).map Row.cls = some .rti ∧ (Instr.row (.jsr 0#16)).map Row.cls = some .call ∧
      State.grantsAll (window 0x01FD .unmapped) [start.readCycleAt start.pc] ∧
      (window 0x01FD .unmapped).bus.denies (start.readCycleAt (stackAddr start.sp)) = true) ∧
    (State.grantsAll (window 0x0000 .unmapped) [start.readCycleAt start.pc, start.readCycleAt 0x01FD#16,
      start.readCycleAt 0x01FE#16, start.readCycleAt 0x01FF#16] ∧
      (window 0x0000 .unmapped).bus.denies (start.readCycleAt (joinBytes (start.byteAt 0x01FF#16) (start.byteAt 0x01FE#16))) = true) ∧
    (0xD0#8, .bne 0x80#8, true) ∈ branchForms 0x80#8 start.p ∧
    hiByte (start.pc + (0x80#8).signExtend 16) ≠ hiByte start.pc ∧
    State.grantsAll (window 0x0680 .unmapped) [start.readCycleAt start.pc] ∧
    (window 0x0680 .unmapped).bus.denies
      (start.readCycleAt (joinBytes (hiByte start.pc) (loByte (start.pc + (0x80#8).signExtend 16)))) = true := by
  unfold State.grantsAll; decide

/-- LDA absolute whose last operand byte cannot be read, and one whose opcode cannot. -/
theorem witness_FetchBusFault :
    let s := windows [{ base := 0x0602, size := 1, kind := .writeOnly }] (poke 0x0600#16 [0xAD#8, 0x00#8, 0x03#8] start)
    let u := windows [{ base := 0x0600, size := 1, kind := .writeOnly }] (poke 0x0600#16 [0xAD#8, 0x00#8, 0x03#8] start)
    s.rst = false ∧ s.e = .fetchOpcode ∧ s.holds s.pc (encode (.ldaAbs 0x0300#16)) ∧
    fetchCyclesAt s.pc (Instr.fetchedBytes (.ldaAbs 0x0300#16)) =
      [.read 0x0600#16 0xAD#8, .read 0x0601#16 0x00#8] ++ .read 0x0602#16 0x03#8 :: [] ∧
    s.grantsAll [.read 0x0600#16 0xAD#8, .read 0x0601#16 0x00#8] ∧
    s.bus.denies (.read 0x0602#16 0x03#8) = true ∧
    u.rst = false ∧ u.e = .fetchOpcode ∧ u.holds u.pc (encode (.ldaAbs 0x0300#16)) ∧ u.grantsAll [] ∧
    u.bus.denies (.read 0x0600#16 0xAD#8) = true :=
  ⟨rfl, rfl, ⟨rfl, rfl, rfl, trivial⟩, rfl, by unfold State.grantsAll; decide, rfl, rfl, rfl,
    ⟨rfl, rfl, rfl, trivial⟩, by unfold State.grantsAll; decide, rfl⟩

/-- The clauses of `RegisterWriters` and `FlagWriters` hold together for NOP and STA. -/
theorem witness_RegisterWriters :
    (∃ row t, Instr.row .nop = some row ∧ exec .nop start = .next t ∧ row.mnemonic = .nop ∧ row.cls = .implied) ∧
    ∃ row t, Instr.row (.staZp 0xFF#8) = some row ∧ exec (.staZp 0xFF#8) start = .next t ∧ row.cls = .write :=
  ⟨⟨_, _, rfl, rfl, rfl, rfl⟩, _, _, rfl, rfl, rfl⟩

theorem witness_NonStoringKeepsMemory :
    (∀ row, Instr.row .tax = some row → row.cls ∉ [.write, .rmw, .push, .call]) ∧ goesOn (exec .tax start) = true :=
  ⟨fun _ h => Option.some.inj h ▸ (by decide), rfl⟩

theorem witness_StoringKeepsOtherBytes :
    ∃ row ea s t, Instr.row (.incZp 0xFF#8) = some row ∧ row.cls = .rmw ∧
    Mode.memOperand row.mode (encode (.incZp 0xFF#8)).tail = some (.zp 0xFF#8) ∧ exec (.incZp 0xFF#8) start = .next t ∧
    MemOperand.resolve true (.zp 0xFF#8) start = .ok ea s := ⟨_, _, _, _, rfl, rfl, rfl, rfl, rfl⟩

theorem witness_StoringKeepsOtherBytes_stopped :
    ∃ s t, exec (.staZpX 0x10#8) holes = .next t ∧ MemOperand.resolve true (.zpX 0x10#8) holes = .stopped s :=
  ⟨_, _, rfl, rfl⟩

theorem witness_PushKeepsOtherBytes :
    goesOn (exec .pha start) = true ∧ goesOn (exec (.jsr 0xFFFF#16) start) = true ∧ 0x01FE#16 ≠ stackAddr start.sp ∧
    0x01FE#16 ≠ stackAddr (start.sp - 1#8) := ⟨rfl, rfl, by decide, by decide⟩

theorem witness_InstructionCycleCounts :
    (start.placeProgram [0xBD#8, 0xFF#8, 0x10#8]).plainRam ∧ (start.placeProgram [0xBD#8, 0xFF#8, 0x10#8]).holds start.pc (encode (.ldaAbsX 0x10FF#16)) ∧
    (∃ row, Instr.row (.ldaAbsX 0x10FF#16) = some row) ∧ start.bus.canRead start.pc = true ∧
    (dispatch (start.byteAt start.pc)).isNone = true :=
  ⟨fun _ => rfl, ⟨rfl, rfl, rfl, trivial⟩, ⟨_, rfl⟩, rfl, rfl⟩

/-- For `DummyAccessesChangeNothing`, `SubroutineReturns` and `StatusSurvivesPushPull`. -/
theorem witness_plain_ram :
    start.plainRam ∧ start.bus.mem.wf = true ∧ start.rst = false ∧ start.e = .fetchOpcode :=
  ⟨fun _ => rfl, rfl, rfl, rfl⟩

theorem witness_DecimalFlagIgnored :
    ∃ row t, Instr.row (.sbcImm 0xFF#8) = some row ∧ row.mnemonic = .sbc ∧ exec (.sbcImm 0xFF#8) start = .next t :=
  ⟨_, _, rfl, rfl, rfl⟩

end Sys2Proof.Tests
end

section
/-! PROOFS. What an instruction writes, on any bus: the operation of each mnemonic (R21 to R29), the sequence each
instruction runs (R98), and the frame of `exec` that follows from the outcomes of the sequences. -/

namespace Sys2Proof.Machine

open Sys2Proof

/-! ## What an operation may write -/

/-- The registers but `PC` that an instruction of a row may not write keep their values (R21 to R23). -/
structure RegistersKept (row : Row) (s t : State) : Prop where
  a : row.mnemonic ∉ [.lda, .pla, .txa, .tya, .adc, .sbc, .and, .ora, .eor] → row.cls ≠ .accumulator → t.a = s.a
  x : row.mnemonic ∉ [.ldx, .tax, .tsx, .inx, .dex] → t.x = s.x
  y : row.mnemonic ∉ [.ldy, .tay, .iny, .dey] → t.y = s.y
  sp : row.mnemonic ∉ [.txs, .pha, .php, .pla, .plp, .jsr, .rts, .rti] → t.sp = s.sp

/-- The flags that an instruction may not write keep their values (R29). -/
structure FlagsKept (m : Mnemonic) (p q : Flags) : Prop where
  c : m ∉ [.adc, .sbc, .asl, .lsr, .rol, .ror, .cmp, .cpx, .cpy, .clc, .sec, .plp, .rti] → q.c = p.c
  zn : m ∉ [.adc, .sbc, .and, .ora, .eor, .bit, .asl, .lsr, .rol, .ror, .cmp, .cpx, .cpy, .inc, .dec, .inx,
        .iny, .dex, .dey, .lda, .ldx, .ldy, .tax, .tay, .txa, .tya, .tsx, .pla, .plp, .rti] →
      q.z = p.z ∧ q.n = p.n
  v : m ∉ [.adc, .sbc, .bit, .clv, .plp, .rti] → q.v = p.v
  i : m ∉ [.cli, .sei, .plp, .rti] → q.i = p.i
  d : m ∉ [.cld, .sed, .plp, .rti] → q.d = p.d

/-- The operation of a row's mnemonic took `s` to `t`: it wrote registers and flags that the mnemonic may write, and
neither `PC` nor anything that is not a register. -/
structure Operated (row : Row) (s t : State) : Prop where
  registers : RegistersKept row s t
  flags : FlagsKept row.mnemonic s.p t.p
  pc : t.pc = s.pc
  cycles : t.cycles = s.cycles
  rst : t.rst = s.rst
  params : t.params = s.params
  bus : t.bus = s.bus

theorem Operated.ran {row : Row} {s t : State} (h : Operated row s t) : Ran s t where
  params := h.params
  rst := h.rst
  regions := by rw [h.bus]
  counted := ⟨[], by rw [h.bus]; rfl, h.cycles⟩
  wf := by rw [h.bus]; exact id

@[simp] theorem setNZ_c (v : Byte) (p : Flags) : (setNZ v p).c = p.c := rfl
@[simp] theorem setNZ_i (v : Byte) (p : Flags) : (setNZ v p).i = p.i := rfl
@[simp] theorem setNZ_d (v : Byte) (p : Flags) : (setNZ v p).d = p.d := rfl
@[simp] theorem setNZ_v (v : Byte) (p : Flags) : (setNZ v p).v = p.v := rfl

/-! One case per mnemonic of the kind: in each, a field is untouched or its list names the mnemonic. -/

theorem readOperation_operated {row : Row} {op : Byte → State → State} (h : Mnemonic.operation row.mnemonic = .read op)
    (v : Byte) (s : State) : Operated row s (op v s) := by
  obtain ⟨m, mode, cls, cycles, format⟩ := row
  cases m <;> cases h
  all_goals
    refine ⟨⟨?_, ?_, ?_, ?_⟩, ⟨?_, ?_, ?_, ?_, ?_⟩, rfl, rfl, rfl, rfl, rfl⟩ <;>
      simp [opAdc, opAnd, opBit, opCmp, opCpx, opCpy, opEor, opLda, opLdx, opLdy, opOra, opSbc, adc, sbc, bitTest,
        compareFlags]

theorem impliedOperation_operated {row : Row} {op : State → State} (h : Mnemonic.operation row.mnemonic = .implied op)
    (s : State) : Operated row s (op s) := by
  obtain ⟨m, mode, cls, cycles, format⟩ := row
  cases m <;> cases h
  all_goals
    refine ⟨⟨?_, ?_, ?_, ?_⟩, ⟨?_, ?_, ?_, ?_, ?_⟩, rfl, rfl, rfl, rfl, rfl⟩ <;>
      simp [opClc, opCld, opCli, opClv, opDex, opDey, opInx, opIny, opNop, opSec, opSed, opSei, opTax, opTay, opTsx,
        opTxa, opTxs, opTya]

theorem pullOperation_operated {row : Row} {op : Byte → State → State} (h : Mnemonic.operation row.mnemonic = .pull op)
    (v : Byte) (s : State) : Operated row s (op v s) := by
  obtain ⟨m, mode, cls, cycles, format⟩ := row
  cases m <;> cases h
  all_goals
    refine ⟨⟨?_, ?_, ?_, ?_⟩, ⟨?_, ?_, ?_, ?_, ?_⟩, rfl, rfl, rfl, rfl, rfl⟩ <;> simp [opPla, opPlp]

theorem rmwOperation_flagsKept {m : Mnemonic} {op : Byte → Flags → Byte × Flags}
    (h : Mnemonic.operation m = .rmw op) (v : Byte) (p : Flags) : FlagsKept m p (op v p).2 := by
  cases m <;> cases h
  all_goals
    refine ⟨?_, ?_, ?_, ?_, ?_⟩ <;> simp [asl, lsr, rol, ror, inc, dec]

/-! ## The sequence each instruction runs -/

/-- The meaning of an instruction of a row is the sequence of its class (R98), applied to the operation of its
mnemonic. -/
inductive RunsAs (row : Row) : (State → Answer) → Prop
  | readImm {op} (h : Mnemonic.operation row.mnemonic = .read op) (v : Byte) : RunsAs row (Machine.readImm v op)
  | readMem {op} (h : Mnemonic.operation row.mnemonic = .read op) (o : MemOperand) : RunsAs row (Machine.readMem o op)
  | writeMem {value} (h : Mnemonic.operation row.mnemonic = .write value) (o : MemOperand) :
      RunsAs row (Machine.writeMem o value)
  | modifyMem {op} (h : Mnemonic.operation row.mnemonic = .rmw op) (o : MemOperand) :
      RunsAs row (Machine.modifyMem o op)
  | accumulator {op} (h : Mnemonic.operation row.mnemonic = .rmw op) (hc : row.cls = .accumulator) :
      RunsAs row (impliedOp (onAccumulator op))
  | implied {op} (h : Mnemonic.operation row.mnemonic = .implied op) : RunsAs row (impliedOp op)
  | branch {cond} (hc : row.cls = .branch) (offset : Byte) : RunsAs row (branchIf cond offset)
  | push {value} (h : Mnemonic.operation row.mnemonic = .push value) : RunsAs row (pushOp value)
  | pull {op} (h : Mnemonic.operation row.mnemonic = .pull op) : RunsAs row (pullOp op)
  | jmpAbs (hc : row.cls = .jump) (a : Addr) : RunsAs row (execJmpAbs a)
  | jmpInd (hc : row.cls = .jumpIndirect) (ptr : Addr) : RunsAs row (execJmpInd ptr)
  | call (hm : row.mnemonic = .jsr) (hc : row.cls = .call) (a : Addr) : RunsAs row (execJsr a)
  | ret (hm : row.mnemonic = .rts) (hc : row.cls = .ret) : RunsAs row execRts
  | rti (hm : row.mnemonic = .rti) (hc : row.cls = .rti) : RunsAs row execRti

/-- Every instruction with a descriptor runs the sequence its descriptor names (R84, R98). -/
theorem exec_runsAs {i : Instr} {row : Row} (h : i.row = some row) : RunsAs row (exec i) := by
  cases i <;> simp at h <;> subst h
  case oraIndX z | oraZp z | oraAbs a | oraIndY z | oraZpX z | oraAbsY a | oraAbsX a | andIndX z | bitZp z |
      andZp z | bitAbs a | andAbs a | andIndY z | andZpX z | andAbsY a | andAbsX a | eorIndX z | eorZp z |
      eorAbs a | eorIndY z | eorZpX z | eorAbsY a | eorAbsX a | adcIndX z | adcZp z | adcAbs a | adcIndY z |
      adcZpX z | adcAbsY a | adcAbsX a | ldaIndX z | ldyZp z | ldaZp z | ldxZp z | ldyAbs a | ldaAbs a |
      ldxAbs a | ldaIndY z | ldyZpX z | ldaZpX z | ldxZpY z | ldaAbsY a | ldyAbsX a | ldaAbsX a | ldxAbsY a |
      cmpIndX z | cpyZp z | cmpZp z | cpyAbs a | cmpAbs a | cmpIndY z | cmpZpX z | cmpAbsY a | cmpAbsX a |
      sbcIndX z | cpxZp z | sbcZp z | cpxAbs a | sbcAbs a | sbcIndY z | sbcZpX z | sbcAbsY a | sbcAbsX a =>
    exact .readMem rfl _
  case aslZp z | aslAbs a | aslZpX z | aslAbsX a | rolZp z | rolAbs a | rolZpX z | rolAbsX a | lsrZp z |
      lsrAbs a | lsrZpX z | lsrAbsX a | rorZp z | rorAbs a | rorZpX z | rorAbsX a | decZp z | decAbs a |
      decZpX z | decAbsX a | incZp z | incAbs a | incZpX z | incAbsX a =>
    exact .modifyMem rfl _
  case php | pha => exact .push rfl
  case oraImm imm | andImm imm | eorImm imm | adcImm imm | ldyImm imm | ldxImm imm | ldaImm imm | cpyImm imm |
      cmpImm imm | cpxImm imm | sbcImm imm => exact .readImm rfl _
  case aslAcc | rolAcc | lsrAcc | rorAcc => exact .accumulator rfl rfl
  case bpl offset | bmi offset | bvc offset | bvs offset | bcc offset | bcs offset | bne offset | beq offset =>
    exact .branch rfl _
  case clc | sec | cli | sei | dey | txa | tya | txs | tay | tax | clv | tsx | iny | dex | cld | inx | nop | sed =>
    exact .implied rfl
  case jsr a => exact .call rfl rfl _
  case plp | pla => exact .pull rfl
  case rti => exact .rti rfl rfl
  case jmpAbs a => exact .jmpAbs rfl _
  case rts => exact .ret rfl rfl
  case jmpInd ptr => exact .jmpInd rfl _
  case staIndX z | styZp z | staZp z | stxZp z | styAbs a | staAbs a | stxAbs a | staIndY z | styZpX z |
      staZpX z | stxZpY z | staAbsY a | staAbsX a => exact .writeMem rfl _

/-! ## The frame of an instruction -/

theorem RegistersKept.of_eq {row : Row} {s t : State} (ha : t.a = s.a) (hx : t.x = s.x) (hy : t.y = s.y)
    (hsp : t.sp = s.sp) : RegistersKept row s t := ⟨fun _ _ => ha, fun _ => hx, fun _ => hy, fun _ => hsp⟩

theorem RegistersKept.trans {row : Row} {s t u : State} (h : RegistersKept row s t) (h' : RegistersKept row t u) :
    RegistersKept row s u where
  a hm hc := (h'.a hm hc).trans (h.a hm hc)
  x hm := (h'.x hm).trans (h.x hm)
  y hm := (h'.y hm).trans (h.y hm)
  sp hm := (h'.sp hm).trans (h.sp hm)

theorem FlagsKept.refl (m : Mnemonic) (p : Flags) : FlagsKept m p p :=
  ⟨fun _ => rfl, fun _ => ⟨rfl, rfl⟩, fun _ => rfl, fun _ => rfl, fun _ => rfl⟩

theorem FlagsKept.of_eq {m : Mnemonic} {p q : Flags} (h : q = p) : FlagsKept m p q := h ▸ FlagsKept.refl m p

theorem FlagsKept.trans {m : Mnemonic} {p q r : Flags} (h : FlagsKept m p q) (h' : FlagsKept m q r) :
    FlagsKept m p r where
  c hm := (h'.c hm).trans (h.c hm)
  zn hm := ⟨(h'.zn hm).1.trans (h.zn hm).1, (h'.zn hm).2.trans (h.zn hm).2⟩
  v hm := (h'.v hm).trans (h.v hm)
  i hm := (h'.i hm).trans (h.i hm)
  d hm := (h'.d hm).trans (h.d hm)

/-- Between `s` and `t` an instruction of a row wrote no register and no flag but its own (R21 to R24, R29), and ran its
bus cycles. -/
structure WroteOnly (row : Row) (s t : State) : Prop extends Ran s t where
  registers : RegistersKept row s t
  flags : FlagsKept row.mnemonic s.p t.p
  pc : row.cls ∉ [.branch, .jump, .jumpIndirect, .call, .ret, .rti] → t.pc = s.pc

theorem WroteOnly.trans {row : Row} {s t u : State} (h : WroteOnly row s t) (h' : WroteOnly row t u) :
    WroteOnly row s u :=
  { Ran.trans h.toRan h'.toRan with
    registers := h.registers.trans h'.registers
    flags := h.flags.trans h'.flags
    pc := fun hc => (h'.pc hc).trans (h.pc hc) }

theorem Operated.wroteOnly {row : Row} {s t : State} (h : Operated row s t) : WroteOnly row s t :=
  { h.ran with registers := h.registers, flags := h.flags, pc := fun _ => h.pc }

theorem Accessed.wroteOnly {s t : State} (row : Row) (h : Accessed s t) : WroteOnly row s t :=
  { h.toRan with
    registers := .of_eq h.a h.x h.y h.sp
    flags := .of_eq h.p
    pc := fun _ => h.pc }

theorem WroteOnly.setSp {row : Row} {s t : State} (h : WroteOnly row s t)
    (hm : row.mnemonic ∈ [.txs, .pha, .php, .pla, .plp, .jsr, .rts, .rti]) (v : Byte) :
    WroteOnly row s (t.setSp v) :=
  { h with registers := { h.registers with sp := fun hn => absurd hm hn } }

theorem WroteOnly.setPc {row : Row} {s t : State} (h : WroteOnly row s t)
    (hc : row.cls ∈ [.branch, .jump, .jumpIndirect, .call, .ret, .rti]) (v : Addr) : WroteOnly row s (t.setPc v) :=
  { h with registers := { h.registers with }, pc := fun hn => absurd hc hn }

/-- What an instruction of a row leaves when it answers a next state, on any bus: what it wrote, and that it ended at a
boundary (R82) or at a failed access (R112). -/
structure InstrOutcome (row : Row) (s t : State) : Prop extends WroteOnly row s t where
  ended : t.e = .fetchOpcode ∨ FailedAccess t

theorem WroteOnly.completed {row : Row} {s t : State} (h : WroteOnly row s t) : InstrOutcome row s t.complete :=
  { h with registers := { h.registers with }, ended := .inl rfl }

theorem EndedInDone.outcome {s t : State} (row : Row) (h : EndedInDone s t) : InstrOutcome row s t :=
  { h.toAccessed.wroteOnly row with ended := .inr h.failed }

/-- A read-modify-write writes no register, and the flags its operation gives. -/
theorem Modified.wroteOnly {row : Row} {op : Byte → Flags → Byte × Flags} {ea : Addr} {s t : State}
    (h : Modified ea s t) (hop : Mnemonic.operation row.mnemonic = .rmw op) (hf : flagsOf op s t) :
    WroteOnly row s t :=
  { h.toRan with
    registers := .of_eq h.a h.x h.y h.sp
    flags := hf.elim .of_eq fun ⟨v, hv⟩ => hv ▸ rmwOperation_flagsKept hop v s.p
    pc := fun _ => h.pc }

theorem onAccumulator_operated {row : Row} {op : Byte → Flags → Byte × Flags}
    (h : Mnemonic.operation row.mnemonic = .rmw op) (hc : row.cls = .accumulator) (s : State) :
    Operated row s (onAccumulator op s) where
  registers := ⟨fun _ hn => absurd hc hn, fun _ => rfl, fun _ => rfl, fun _ => rfl⟩
  flags := rmwOperation_flagsKept h s.a s.p
  pc := rfl
  cycles := rfl
  rst := rfl
  params := rfl
  bus := rfl

theorem pushOperation_movesSp {m : Mnemonic} {value : State → Byte} (h : Mnemonic.operation m = .push value) :
    m ∈ [.txs, .pha, .php, .pla, .plp, .jsr, .rts, .rti] := by
  cases m <;> cases h <;> decide

theorem pullOperation_movesSp {m : Mnemonic} {op : Byte → State → State} (h : Mnemonic.operation m = .pull op) :
    m ∈ [.txs, .pha, .php, .pla, .plp, .jsr, .rts, .rti] := by
  cases m <;> cases h <;> decide

/-- A call or a return writes `SP` and `PC`, and keeps the flags that its mnemonic may not write. -/
theorem Transferred.wroteOnly {row : Row} {stored : Addr → Prop} {s t : State} (h : Transferred stored s t)
    (hm : row.mnemonic ∈ [.jsr, .rts, .rti]) (hc : row.cls ∈ [.call, .ret, .rti])
    (hf : FlagsKept row.mnemonic s.p t.p) : WroteOnly row s t :=
  { h.toRan with
    registers := ⟨fun _ _ => h.a, fun _ => h.x, fun _ => h.y, fun hn => absurd hm (by simp_all)⟩
    flags := hf
    pc := fun hn => absurd hc (by simp_all) }

/-- RTI may write every flag. -/
theorem FlagsKept.rti (p q : Flags) : FlagsKept .rti p q := by
  constructor <;> simp

/-- The outcome of the sequence an instruction runs. -/
theorem RunsAs.outcome {row : Row} {meaning : State → Answer} (hr : RunsAs row meaning) {s t : State}
    (h : meaning s = .next t) : InstrOutcome row s t := by
  cases hr with
  | readImm hop v =>
    cases h
    exact (readOperation_operated hop v s).wroteOnly.completed
  | readMem hop o =>
    rcases readMem_outcome h with ⟨v, s', hs, rfl⟩ | hd
    · exact ((hs.wroteOnly row).trans (readOperation_operated hop v s').wroteOnly).completed
    · exact hd.outcome row
  | writeMem hop o =>
    rcases writeMem_outcome h with ⟨ea, s', -, u, hu, rfl⟩ | hd
    · exact (hu.wroteOnly row).completed
    · exact hd.outcome row
  | modifyMem hop o =>
    rcases modifyMem_outcome h with ⟨ea, s', -, hf, ⟨u, hu, rfl⟩ | ⟨hu, hd⟩⟩ | hd
    · exact (hu.wroteOnly hop hf).completed
    · exact { hu.wroteOnly hop hf with ended := .inr hd }
    · exact hd.outcome row
  | accumulator hop hc =>
    rcases impliedOp_outcome h with ⟨s', hs, rfl⟩ | hd
    · exact ((hs.wroteOnly row).trans (onAccumulator_operated hop hc s').wroteOnly).completed
    · exact hd.outcome row
  | implied hop =>
    rcases impliedOp_outcome h with ⟨s', hs, rfl⟩ | hd
    · exact ((hs.wroteOnly row).trans (impliedOperation_operated hop s').wroteOnly).completed
    · exact hd.outcome row
  | branch hc offset =>
    have hc' : row.cls ∈ [.branch, .jump, .jumpIndirect, .call, .ret, .rti] := by simp [hc]
    rcases branchIf_outcome h with ⟨s', pc, hs, rfl⟩ | hd | ⟨s', pc, hd, rfl⟩
    · exact ((hs.wroteOnly row).setPc hc' pc).completed
    · exact hd.outcome row
    · exact { (hd.wroteOnly row).setPc hc' pc with ended := .inr hd.failed }
  | push hop =>
    rcases pushOp_outcome h with ⟨u, hu, rfl⟩ | hd
    · exact ((hu.wroteOnly row).setSp (pushOperation_movesSp hop) _).completed
    · exact hd.outcome row
  | pull hop =>
    rcases pullOp_outcome h with ⟨v, u, hu, rfl⟩ | hd
    · exact (((hu.wroteOnly row).setSp (pullOperation_movesSp hop) _).trans
        (pullOperation_operated hop v _).wroteOnly).completed
    · exact hd.outcome row
  | jmpAbs hc a =>
    cases h
    exact (((ReadsOnly.refl s).wroteOnly row).setPc (by simp [hc]) a).completed
  | jmpInd hc ptr =>
    rcases execJmpInd_outcome h with ⟨s', pc, hs, rfl⟩ | hd
    · exact ((hs.wroteOnly row).setPc (by simp [hc]) pc).completed
    · exact hd.outcome row
  | call hm hc a =>
    obtain ⟨ht, hp, he⟩ := execJsr_outcome h
    exact { ht.wroteOnly (by simp [hm]) (by simp [hc]) (.of_eq hp) with ended := he }
  | ret hm hc =>
    obtain ⟨ht, hp, he⟩ := execRts_outcome h
    exact { ht.wroteOnly (by simp [hm]) (by simp [hc]) (.of_eq hp) with ended := he }
  | rti hm hc =>
    obtain ⟨ht, he⟩ := execRti_outcome h
    exact { ht.wroteOnly (by simp [hm]) (by simp [hc]) (hm ▸ FlagsKept.rti s.p t.p) with ended := he }

/-- What every instruction with a descriptor leaves, on any bus. -/
theorem exec_outcome {i : Instr} {row : Row} {s t : State} (hr : i.row = some row) (h : exec i s = .next t) :
    InstrOutcome row s t := (exec_runsAs hr).outcome h

/-- Settles O44, by the frame of the sequence each instruction runs. -/
theorem registerWriters : Obligations.RegisterWriters := by
  intro i row s t hr h
  have ho := exec_outcome hr h
  exact ⟨ho.registers.a, ho.registers.x, ho.registers.y, ho.registers.sp, ho.pc⟩

/-- Settles O45, by the frame of the sequence each instruction runs. -/
theorem flagWriters : Obligations.FlagWriters := by
  intro i row s t hr h
  have ho := exec_outcome hr h
  exact ⟨ho.flags.c, ho.flags.zn, ho.flags.v, ho.flags.i, ho.flags.d⟩

end Sys2Proof.Machine
end

section
/-! PROOFS. The invariant of the machine (R30, R31, R33, R231, R232): a step layer said once per shared operation, the
length of each cycle sequence (R100 to R111), and the invariant kept by every cycle and every step. -/

namespace Sys2Proof.Machine

open Sys2Proof

/-! ## Parts of a sequence on any bus -/

/-- A part of a sequence runs its bus cycles from `s`, and if it stops, it stops at a failed access (R112). -/
def Flow.Runs {α : Type} (f : Flow α) (s : State) : Prop :=
  f.Meets (fun _ t => Ran s t) (fun t => Ran s t ∧ FailedAccess t)

theorem Flow.Runs.bind {α β : Type} {f : Flow α} {k : α → State → Flow β} {s : State} (hf : f.Runs s)
    (hk : ∀ v t, (k v t).Runs t) : (f.bind k).Runs s :=
  Flow.Meets.bind hf fun v t ht => (hk v t).weaken (fun _ _ hu => ht.trans hu) fun _ hu => ⟨ht.trans hu.1, hu.2⟩

theorem Flow.Reads.runs {α : Type} {f : Flow α} {s : State} (hf : f.Reads s) : f.Runs s :=
  hf.weaken (fun _ _ ht => ht.1.toRan) fun _ ht => ⟨ht.toRan, ht.failed⟩

theorem busRead_runs (a : Addr) (s : State) : (busRead a s).Runs s := (busRead_reads a s).runs

theorem dummyRead_runs (a : Addr) (s : State) : (dummyRead a s).Runs s := (dummyRead_reads a s).runs

theorem busWrite_runs (a : Addr) (v : Byte) (s : State) : (busWrite a v s).Runs s :=
  (busWrite_wrote a v s).weaken (fun _ _ ht => ht.1.toRan) fun _ ht => ⟨ht.toRan, ht.failed⟩

theorem Ran.setPc (s : State) (v : Addr) : Ran s (s.setPc v) := { Ran.refl s with }
theorem Ran.setSp (s : State) (v : Byte) : Ran s (s.setSp v) := { Ran.refl s with }
theorem Ran.setP (s : State) (f : Flags) : Ran s (s.setP f) := { Ran.refl s with }
theorem Ran.setE (s : State) (e : Executor) : Ran s (s.setE e) := { Ran.refl s with }

theorem fetchByte_runs (s : State) : (fetchByte s).Runs s := (busRead_runs s.pc s).bind fun _ t => Ran.setPc t _

theorem push_runs (v : Byte) (s : State) : (push v s).Runs s := (busWrite_runs _ v s).bind fun _ t => Ran.setSp t _

theorem pull_runs (s : State) : (pull s).Runs s := (busRead_runs _ s).bind fun _ t => Ran.setSp t _

/-! ## Legal executor states -/

theorem executorLegal_of_boundary {t : State} (h : t.e = .fetchOpcode) : t.executorLegal := by
  simp [State.executorLegal, h]

theorem executorLegal_of_processing {t : State} {h : Handler} (he : t.e = .processing h) (hl : h.legal) :
    t.executorLegal := by
  simpa [State.executorLegal, he] using hl

theorem executorLegal_of_unknownOpcode {t : State} {op : Byte} (he : t.e = .done (.unknownOpcode op))
    (hd : dispatch op = none) : t.executorLegal := by
  simpa [State.executorLegal, he] using hd

theorem FailedAccess.executorLegal {t : State} (h : FailedAccess t) : t.executorLegal := by
  rcases h with ⟨a, he, hl⟩ | ⟨a, v, he, hl⟩ <;> simp [State.executorLegal, he, hl]

theorem Handler.legal_of_processing {s : State} {h : Handler} (he : s.e = .processing h) (hs : s.executorLegal) :
    h.legal := by
  simpa [State.executorLegal, he] using hs

/-- The invariant is kept wherever bus cycles ran and the executor state is legal. -/
theorem State.Inv.of_ran {s t : State} (h : s.Inv) (hr : Ran s t) (he : t.executorLegal) : t.Inv where
  memory := hr.wf h.memory
  executor := he
  counted := by
    obtain ⟨l, hl, hc⟩ := hr.counted
    rw [hl, hc, List.length_append]
    have := h.counted
    omega

/-- An asserted reset keeps the invariant: it restarts the counter and keeps memory and history (R252). -/
theorem State.Inv.assertReset {s : State} (h : s.Inv) : s.assertReset.Inv where
  memory := h.memory
  executor := executorLegal_of_boundary rfl
  counted := Nat.zero_le _

/-! ## How long a sequence is -/

/-- The last cycle of a mode before its operand access, the read at the unfixed address included (R101 to R107). -/
def Mode.addressEnd : Mode → Nat
  | .zeroPage => 2
  | .zeroPageX => 3
  | .zeroPageY => 3
  | .absolute => 3
  | .absoluteX => 4
  | .absoluteY => 4
  | .indirectX => 5
  | .indirectY => 5
  | _ => 1

/-- The last cycle a sequence can have (R100 to R110), by its operation and mode. -/
def Operation.lastCycle (m : Mode) : Operation → Nat
  | .read _ => Mode.addressEnd m + 1
  | .write _ => Mode.addressEnd m + 1
  | .rmw _ => if m = .accumulator then 2 else Mode.addressEnd m + 3
  | .implied _ => 2
  | .branch _ => 4
  | .push _ => 3
  | .pull _ => 4
  | .jump => if m = .absolute then 3 else 5
  | .call => 6
  | .ret => 6
  | .rti => 6

/-- The last cycle of a row's sequence. -/
def Row.lastCycle (row : Row) : Nat := (Mnemonic.operation row.mnemonic).lastCycle row.mode

/-- The last cycle that the counts of R111 allow a row: the bound of `Handler.legal`. -/
def Row.countedLast (row : Row) : Nat :=
  match row.cls, row.mode with
  | .read, .absoluteX => row.cycles + 1
  | .read, .absoluteY => row.cycles + 1
  | .read, .indirectY => row.cycles + 1
  | .branch, _ => row.cycles + 2
  | _, _ => row.cycles

/-- The counts of the opcode map are the lengths of the sequences. -/
theorem countedLast_eq_lastCycle {op : Byte} {row : Row} (h : dispatch op = some row) :
    Row.countedLast row = Row.lastCycle row := by
  have hall : ∀ op : Byte, (dispatch op).all (fun row => Row.countedLast row == Row.lastCycle row) = true := by decide
  simpa [h] using hall op

theorem Handler.legal_iff {h : Handler} {row : Row} (hd : dispatch h.op = some row) :
    h.legal ↔ 2 ≤ h.t ∧ h.t ≤ Row.lastCycle row := by
  rw [← countedLast_eq_lastCycle hd]
  constructor
  · rintro ⟨row', hd', h2, hl⟩
    cases hd.symm.trans hd'
    exact ⟨h2, hl⟩
  · exact fun ⟨h2, hl⟩ => ⟨row, hd, h2, hl⟩

theorem one_le_addressEnd (m : Mode) : 1 ≤ Mode.addressEnd m := by
  cases m <;> decide

/-- Every sequence has a cycle after the opcode fetch (R100 to R110). -/
theorem two_le_lastCycle (row : Row) : 2 ≤ Row.lastCycle row := by
  have h1 := one_le_addressEnd row.mode
  unfold Row.lastCycle
  cases Mnemonic.operation row.mnemonic <;> simp only [Operation.lastCycle]
  case rmw | jump => split <;> omega
  all_goals omega

/-! ## One cycle of a handler -/

/-- A cycle of the handler `h` ran its bus cycle from `s`. If the instruction goes on, it is the same handler, at a cycle
before `last`; if it stops, it stops at a failed access (R82, R112). -/
def CycleEnd.Within (c : CycleEnd) (last : Nat) (h : Handler) (s : State) : Prop :=
  match c with
  | .more h' t => (h'.op = h.op ∧ h'.t = h.t ∧ h.t < last) ∧ Ran s t
  | .complete t => Ran s t
  | .stopped t => Ran s t ∧ FailedAccess t
  | .none => True

theorem CycleEnd.Within.mono {c : CycleEnd} {last last' : Nat} {h : Handler} {s : State} (hc : c.Within last h s)
    (hl : last ≤ last') : c.Within last' h s := by
  cases c with
  | more h' t =>
    obtain ⟨⟨hop, ht, hlt⟩, hr⟩ := hc
    exact ⟨⟨hop, ht, by omega⟩, hr⟩
  | complete t => exact hc
  | stopped t => exact hc
  | none => trivial

theorem Flow.Runs.within {α : Type} {f : Flow α} {k : α → State → CycleEnd} {last : Nat} {h : Handler} {s : State}
    (hf : f.Runs s) (hk : ∀ v t, Ran s t → (k v t).Within last h s) : (f.cycleEnd k).Within last h s := by
  cases f with
  | ok v t => exact hk v t hf
  | stopped t => exact hf

/-- A cycle that only updates the handler's bytes goes on. -/
theorem Flow.Runs.goesOn {α : Type} {f : Flow α} {g : α → State → Handler} {last : Nat} {h : Handler} {s : State}
    (hf : f.Runs s) (hl : h.t < last)
    (hg : ∀ v t, (g v t).op = h.op ∧ (g v t).t = h.t := by exact fun _ _ => ⟨rfl, rfl⟩) :
    (f.cycleEnd fun v t => .more (g v t) t).Within last h s :=
  hf.within fun v t hr => ⟨⟨(hg v t).1, (hg v t).2, hl⟩, hr⟩

/-- A cycle of a mode's sequence: before the operand access it is one that `Mode.addressEnd` counts, and the `k`-th
cycle at the effective address is at most the `k`-th after those. -/
def OperandCycle.Within (c : OperandCycle) (m : Mode) (h : Handler) (s : State) : Prop :=
  match c with
  | .before c => c.Within (Mode.addressEnd m + 1) h s
  | .operand k _ => h.t ≤ Mode.addressEnd m + 1 + k

theorem unfixedCycle_within {always : Bool} {m : Mode} {h : Handler} {s : State} (ht : h.t = Mode.addressEnd m) :
    (unfixedCycle always h s).Within m h s := by
  unfold unfixedCycle
  split
  · exact (busRead_runs _ s).goesOn (by omega)
  · show h.t ≤ _
    omega

/-- The cycles of the addressing modes, by the access each makes. -/
theorem operandCycle_within (always : Bool) (m : Mode) (h : Handler) (s : State) :
    (operandCycle always m h s).Within m h s := by
  unfold operandCycle
  split
  -- An operand byte is fetched.
  case h_1 | h_3 | h_6 | h_9 | h_10 | h_12 | h_13 | h_16 | h_17 | h_20 | h_25 =>
    exact (fetchByte_runs s).goesOn (by simp only [Mode.addressEnd]; omega)
  -- An index is added in the zero page.
  case h_4 | h_7 | h_21 => exact (dummyRead_runs _ s).goesOn (by simp only [Mode.addressEnd]; omega)
  -- A byte of a pointer is read.
  case h_22 | h_23 | h_26 | h_27 => exact (busRead_runs _ s).goesOn (by simp only [Mode.addressEnd]; omega)
  -- The unfixed address is read.
  case h_14 | h_18 | h_28 => exact unfixedCycle_within ‹_›
  -- The operand is accessed.
  case h_2 | h_5 | h_8 | h_11 | h_15 | h_19 | h_24 | h_29 =>
    simp only [OperandCycle.Within, Mode.addressEnd]
    omega
  case h_30 => trivial

theorem impliedCycle_within {op : State → State} (hop : ∀ s, Ran s (op s)) (h : Handler) (s : State) :
    (impliedCycle op h s).Within 2 h s := by
  unfold impliedCycle
  split
  · exact (dummyRead_runs _ s).within fun _ t ht => ht.trans (hop t)
  · trivial

theorem readCycle_within {op : Byte → State → State} (hop : ∀ v s, Ran s (op v s)) (m : Mode) (h : Handler)
    (s : State) : (readCycle op m h s).Within (Mode.addressEnd m + 1) h s := by
  have ho := operandCycle_within false m h s
  unfold readCycle
  split
  · exact (fetchByte_runs s).within fun v t ht => ht.trans (hop v t)
  · split
    · next hc => rwa [hc] at ho
    · exact (busRead_runs _ s).within fun v t ht => ht.trans (hop v t)
    · trivial

theorem writeCycle_within (value : State → Byte) (m : Mode) (h : Handler) (s : State) :
    (writeCycle value m h s).Within (Mode.addressEnd m + 1) h s := by
  have ho := operandCycle_within true m h s
  unfold writeCycle
  split
  · next hc => rwa [hc] at ho
  · exact (busWrite_runs _ _ s).within fun _ _ ht => ht
  · trivial

theorem modifyCycle_within (op : Byte → Flags → Byte × Flags) (m : Mode) (h : Handler) (s : State) :
    (modifyCycle op m h s).Within ((Operation.rmw op).lastCycle m) h s := by
  unfold modifyCycle
  split
  · exact impliedCycle_within (op := onAccumulator op) (fun s => { Ran.refl s with }) h s
  · next hm =>
    have ho := operandCycle_within true m h s
    have hlast : (Operation.rmw op).lastCycle m = Mode.addressEnd m + 3 := if_neg hm
    rw [hlast]
    split
    · next hc =>
      rw [hc] at ho
      exact CycleEnd.Within.mono ho (by omega)
    · next hc =>
      rw [hc] at ho
      exact (busRead_runs _ s).goesOn (Nat.lt_of_le_of_lt ho (by omega))
    · next hc =>
      rw [hc] at ho
      exact (busWrite_runs _ _ s).within fun _ t ht =>
        ⟨⟨rfl, rfl, Nat.lt_of_le_of_lt ho (by omega)⟩, ht.trans (Ran.setP t _)⟩
    · exact (busWrite_runs _ _ s).within fun _ _ ht => ht
    · trivial

theorem branchCycle_within (cond : Flags → Bool) (h : Handler) (s : State) :
    (branchCycle cond h s).Within 4 h s := by
  unfold branchCycle
  split
  · refine (fetchByte_runs s).within fun v t ht => ?_
    split
    · exact ⟨⟨rfl, rfl, by omega⟩, ht⟩
    · exact ht
  · refine (dummyRead_runs _ s).within fun v t ht => ?_
    split
    · exact ⟨⟨rfl, rfl, by omega⟩, ht.trans (Ran.setPc t _)⟩
    · exact ht.trans (Ran.setPc t _)
  · exact (dummyRead_runs _ s).within fun _ _ ht => ht
  · trivial

theorem pushCycle_within (value : State → Byte) (h : Handler) (s : State) : (pushCycle value h s).Within 3 h s := by
  unfold pushCycle
  split
  · exact (dummyRead_runs _ s).goesOn (by omega)
  · exact (push_runs _ s).within fun _ _ ht => ht
  · trivial

theorem pullCycle_within {op : Byte → State → State} (hop : ∀ v s, Ran s (op v s)) (h : Handler) (s : State) :
    (pullCycle op h s).Within 4 h s := by
  unfold pullCycle
  split
  · exact (dummyRead_runs _ s).goesOn (by omega)
  · exact (dummyRead_runs _ s).goesOn (by omega)
  · exact (pull_runs s).within fun v t ht => ht.trans (hop v t)
  · trivial

theorem jumpCycle_within (m : Mode) (h : Handler) (s : State) :
    (jumpCycle m h s).Within (Operation.jump.lastCycle m) h s := by
  unfold jumpCycle
  split
  · exact (fetchByte_runs s).goesOn (show h.t < 3 by omega)
  · exact (busRead_runs _ s).within fun _ t ht => ht.trans (Ran.setPc t _)
  · exact (fetchByte_runs s).goesOn (show h.t < 5 by omega)
  · exact (fetchByte_runs s).goesOn (show h.t < 5 by omega)
  · exact (busRead_runs _ s).goesOn (show h.t < 5 by omega)
  · exact (busRead_runs _ s).within fun _ t ht => ht.trans (Ran.setPc t _)
  · trivial

theorem callCycle_within (h : Handler) (s : State) : (callCycle h s).Within 6 h s := by
  unfold callCycle
  split
  · exact (fetchByte_runs s).goesOn (by omega)
  · exact (dummyRead_runs _ s).goesOn (by omega)
  · exact (push_runs _ s).goesOn (by omega)
  · exact (push_runs _ s).goesOn (by omega)
  · exact (busRead_runs _ s).within fun _ t ht => ht.trans (Ran.setPc t _)
  · trivial

theorem retCycle_within (h : Handler) (s : State) : (retCycle h s).Within 6 h s := by
  unfold retCycle
  split
  · exact (dummyRead_runs _ s).goesOn (by omega)
  · exact (dummyRead_runs _ s).goesOn (by omega)
  · exact (pull_runs s).goesOn (by omega)
  · exact (pull_runs s).within fun _ t ht => ⟨⟨rfl, rfl, by omega⟩, ht.trans (Ran.setPc t _)⟩
  · exact (dummyRead_runs _ s).within fun _ t ht => ht.trans (Ran.setPc t _)
  · trivial

theorem rtiCycle_within (h : Handler) (s : State) : (rtiCycle h s).Within 6 h s := by
  unfold rtiCycle
  split
  · exact (dummyRead_runs _ s).goesOn (by omega)
  · exact (dummyRead_runs _ s).goesOn (by omega)
  · exact (pull_runs s).within fun _ t ht => ⟨⟨rfl, rfl, by omega⟩, ht.trans (Ran.setP t _)⟩
  · exact (pull_runs s).goesOn (by omega)
  · exact (pull_runs s).within fun _ t ht => ht.trans (Ran.setPc t _)
  · trivial

/-- One cycle of a handler, whatever its row (R82, R84). -/
theorem handlerCycle_within (row : Row) (h : Handler) (s : State) :
    (handlerCycle row h s).Within (Row.lastCycle row) h s := by
  unfold handlerCycle Row.lastCycle
  split
  · next op hop =>
    rw [hop]
    exact readCycle_within (fun v s => (readOperation_operated hop v s).ran) row.mode h s
  · next value hop =>
    rw [hop]
    exact writeCycle_within value row.mode h s
  · next op hop =>
    rw [hop]
    exact modifyCycle_within op row.mode h s
  · next op hop =>
    rw [hop]
    exact impliedCycle_within (fun s => (impliedOperation_operated hop s).ran) h s
  · next cond hop =>
    rw [hop]
    exact branchCycle_within cond h s
  · next value hop =>
    rw [hop]
    exact pushCycle_within value h s
  · next op hop =>
    rw [hop]
    exact pullCycle_within (fun v s => (pullOperation_operated hop v s).ran) h s
  · next hop =>
    rw [hop]
    exact jumpCycle_within row.mode h s
  · next hop =>
    rw [hop]
    exact callCycle_within h s
  · next hop =>
    rw [hop]
    exact retCycle_within h s
  · next hop =>
    rw [hop]
    exact rtiCycle_within h s

/-! ## One cycle of the executor -/

/-- The opcode fetch ends at a fresh handler, at an unknown opcode, or at a failed access (R81). -/
theorem fetchCycle_legal (s : State) : Ran s (fetchCycle s) ∧ (fetchCycle s).executorLegal := by
  have hf := fetchByte_runs s
  unfold fetchCycle
  split
  · next t ht =>
    rw [ht] at hf
    exact ⟨hf.1, hf.2.executorLegal⟩
  · next op t ht =>
    rw [ht] at hf
    split
    · next hd => exact ⟨hf.trans (Ran.setE t _), executorLegal_of_unknownOpcode rfl hd⟩
    · next row hd =>
      have hl : (freshHandler op t.bus.log).legal := (Handler.legal_iff hd).2 ⟨Nat.le_refl 2, two_le_lastCycle row⟩
      exact ⟨hf.trans (Ran.setE t _), executorLegal_of_processing rfl hl⟩

/-- A cycle from a legal executor state ends in a legal one: a handler at a cycle of its sequence, a boundary or
`Done`. -/
theorem cycle_legal {s t : State} (hs : s.executorLegal) (hr : s.rst = false) (h : cycle s = .next t) :
    Ran s t ∧ t.executorLegal := by
  unfold cycle at h
  simp only [hr, Bool.false_eq_true, if_false] at h
  split at h
  · cases h
    exact fetchCycle_legal s
  · cases h
  · next hnd he =>
    split at h
    · cases h
    · next row hd =>
      have hw := handlerCycle_within row hnd s
      split at h <;> cases h
      · next h' t hc =>
        rw [hc] at hw
        obtain ⟨⟨hop, ht, hlt⟩, hran⟩ := hw
        have h2 := ((Handler.legal_iff hd).1 (Handler.legal_of_processing he hs)).1
        have hl : Handler.legal { h' with t := h'.t + 1 } :=
          (Handler.legal_iff (by rw [← hd, ← hop])).2 (by simp only [ht]; omega)
        exact ⟨hran.trans (Ran.setE t _), executorLegal_of_processing rfl hl⟩
      · next t hc =>
        rw [hc] at hw
        exact ⟨Ran.trans hw (Ran.setE t _), executorLegal_of_boundary rfl⟩
      · next hc =>
        rw [hc] at hw
        exact ⟨hw.1, hw.2.executorLegal⟩

/-- Settles O14: the reset restarts the counter, and every other cycle runs its bus cycle to a legal executor state. -/
theorem cycleKeepsInvariant : Obligations.CycleKeepsInvariant := by
  intro s t hs h
  cases hr : s.rst with
  | true =>
    simp only [cycle, hr, if_true, Host.Outcome.next.injEq] at h
    exact h ▸ hs.assertReset
  | false =>
    obtain ⟨hran, hl⟩ := cycle_legal hs.executor hr h
    exact hs.of_ran hran hl

theorem finishInstr_inv {n : Nat} {s t : State} (hs : s.Inv) (h : finishInstr n s = .next t) : t.Inv := by
  induction n generalizing s with
  | zero =>
    cases h
    exact hs
  | succ n ih =>
    unfold finishInstr at h
    split at h
    · split at h
      · next u hc => exact ih (cycleKeepsInvariant s u hs hc) h
      · cases h
      · cases h
    · cases h
      exact hs
    · cases h
      exact hs

/-! ## The fetches of an instruction -/

theorem fetchBytes_runs (n : Nat) (s : State) :
    (fetchBytes n s).Meets (fun bs t => Ran s t ∧ bs.length = n) (fun t => Ran s t ∧ FailedAccess t) := by
  induction n generalizing s with
  | zero => exact ⟨Ran.refl s, rfl⟩
  | succ n ih =>
    refine Flow.Meets.bind (fetchByte_runs s) fun b t ht => ?_
    refine Flow.Meets.bind ((ih t).weaken (fun _ _ h => h) fun _ h => ⟨ht.trans h.1, h.2⟩) fun bs u hu => ?_
    exact ⟨ht.trans hu.1, by simp [hu.2]⟩

theorem haltByte_not_dispatched : dispatch haltByte = none := Instr.row_halt

/-- The decoder takes the bytes of a dispatched opcode whenever its operand bytes are there (R60, R62). -/
theorem decode_of_enough {op : Byte} {row : Row} {bs : List Byte} (hd : dispatch op = some row)
    (hl : row.format.operandBytes ≤ bs.length) : ∃ i rest, decode (op :: bs) = .ok (i, rest) := by
  have hop : op ≠ haltByte := by
    rintro rfl
    cases haltByte_not_dispatched.symm.trans hd
  simp only [decode, if_neg hop, hd]
  cases hf : row.format with
  | f1 i => exact ⟨i, bs, rfl⟩
  | f2 make =>
    rw [hf] at hl
    match bs, hl with
    | b :: rest, _ => exact ⟨make b, rest, rfl⟩
  | f3 make =>
    rw [hf] at hl
    match bs, hl with
    | lo :: hi :: rest, _ => exact ⟨make (joinBytes hi lo), rest, rfl⟩

/-- The operand bytes fetched and the one JSR leaves for later are all the operand bytes there are (R110). -/
theorem operandBytes_le_leadingFetches (row : Row) (s : State) :
    row.format.operandBytes ≤
      Row.leadingFetches row + (laterBytes (row.format.operandBytes - Row.leadingFetches row) s).length := by
  obtain ⟨m, mode, cls, cycles, format⟩ := row
  unfold Row.leadingFetches
  split
  · cases format <;> simp [Format.operandBytes, laterBytes]
  · omega

/-- The fetches of an instruction end at the instruction to run, at an unknown opcode, or at a failed access. -/
theorem fetchInstr_legal (s : State) :
    (fetchInstr s).Meets (fun _ t => Ran s t) (fun t => Ran s t ∧ t.executorLegal) := by
  unfold fetchInstr
  refine Flow.Meets.bind ((fetchByte_runs s).weaken (fun _ _ h => h) fun _ h => ⟨h.1, h.2.executorLegal⟩)
    fun op t ht => ?_
  split
  · next hd =>
    split
    · exact ht
    · exact ⟨ht.trans (Ran.setE t _), executorLegal_of_unknownOpcode rfl hd⟩
  · next row hd =>
    refine Flow.Meets.bind ((fetchBytes_runs _ t).weaken (fun _ _ h => h) fun _ h =>
      ⟨ht.trans h.1, h.2.executorLegal⟩) fun operands u hu => ?_
    obtain ⟨hran, hlen⟩ := hu
    have henough := operandBytes_le_leadingFetches row u
    obtain ⟨i, rest, hi⟩ := decode_of_enough (bs := operands ++ laterBytes _ u) hd
      (by rw [List.length_append, hlen]; exact henough)
    simp only [List.cons_append, hi]
    exact ht.trans hran

/-- Byte $00 alone has no descriptor (R65, R218). -/
theorem eq_halt_of_row_none {i : Instr} (h : i.row = none) : i = .halt := by
  cases i with
  | halt => rfl
  | _ => simp at h

/-- A meaning runs its bus cycles and ends in a legal executor state, byte $00 included (R218). -/
theorem exec_legal {i : Instr} {s t : State} (h : exec i s = .next t) : Ran s t ∧ t.executorLegal := by
  cases hr : i.row with
  | some row =>
    have ho := exec_outcome hr h
    exact ⟨ho.toRan, ho.ended.elim executorLegal_of_boundary FailedAccess.executorLegal⟩
  | none =>
    cases eq_halt_of_row_none hr
    cases h
    exact ⟨Ran.setE s _, executorLegal_of_unknownOpcode rfl haltByte_not_dispatched⟩

theorem runInstr_legal {s t : State} (h : runInstr s = .next t) : Ran s t ∧ t.executorLegal := by
  have hf := fetchInstr_legal s
  unfold runInstr at h
  split at h
  · next i u hu =>
    rw [hu] at hf
    obtain ⟨hran, hl⟩ := exec_legal h
    exact ⟨Ran.trans hf hran, hl⟩
  · next u hu =>
    rw [hu] at hf
    cases h
    exact hf

/-- Settles O13: a whole instruction runs its bus cycles to a legal executor state, and an instruction in flight is
finished by cycles that each keep the invariant. -/
theorem stepKeepsInvariant : Obligations.StepKeepsInvariant := by
  intro s t hs h
  unfold step at h
  split at h
  · cases h
    exact hs.assertReset
  · split at h
    · obtain ⟨hran, hl⟩ := runInstr_legal h
      exact hs.of_ran hran hl
    · exact finishInstr_inv hs h
    · cases h

end Sys2Proof.Machine
end

section
/-! PROOFS. The stack instructions and RTI when their accesses are granted (R109, R110, R184, R200 to R203), the views
of the status register (R26 to R28), and the output ports (R33, R34). -/

namespace Sys2Proof.Machine

open Sys2Proof

/-! ## Stack instructions, granted -/

theorem pushOp_granted {value : State → Byte} {v : Byte} {s : State} (hv : value (s.after [s.dummyCycle s.pc]) = v)
    (h : s.grantsAll [s.dummyCycle s.pc, .write (stackAddr s.sp) v]) :
    pushOp value s = .next (((s.after [s.dummyCycle s.pc, .write (stackAddr s.sp) v]).setMem
      (s.bus.mem.write (stackAddr s.sp).toNat v)).setSp (s.sp - 1#8)).complete := by
  simp only [State.grantsAll_cons] at h
  obtain ⟨hdummy, hwrite, -⟩ := h
  unfold pushOp
  rw [dummyRead_granted hdummy, Flow.bind_ok, hv, push_granted (by simpa using hwrite), Flow.answer_ok,
    State.after_after]
  rfl

/-- Settles O40, by the push sequence with the byte each instruction pushes. -/
theorem pushResults : Obligations.PushResults := by
  intro s
  exact ⟨⟨rfl, rfl, fun h => pushOp_granted rfl h⟩, ⟨rfl, rfl, fun h => pushOp_granted rfl h⟩⟩

/-- The two dummy cycles that begin a pull, RTS and RTI. -/
theorem pullStart_granted {β : Type} {s : State} {k : Unit → State → Flow β}
    (hpc : s.bus.grants (s.dummyCycle s.pc) = true) (hsp : s.bus.grants (s.dummyCycle (stackAddr s.sp)) = true) :
    ((dummyRead s.pc s).bind fun _ s => (dummyRead (stackAddr s.sp) s).bind k) =
      k () (s.after [s.dummyCycle s.pc, s.dummyCycle (stackAddr s.sp)]) := by
  rw [dummyRead_granted hpc, Flow.bind_ok, dummyRead_granted (by simpa using hsp), Flow.bind_ok, State.after_after]
  rfl

theorem pullOp_granted {op : Byte → State → State} {s : State}
    (h : s.grantsAll [s.dummyCycle s.pc, s.dummyCycle (stackAddr s.sp), s.readCycleAt (stackAddr (s.sp + 1#8))]) :
    pullOp op s = .next (op (s.byteAt (stackAddr (s.sp + 1#8))) ((s.after [s.dummyCycle s.pc,
      s.dummyCycle (stackAddr s.sp), s.readCycleAt (stackAddr (s.sp + 1#8))]).setSp (s.sp + 1#8))).complete := by
  simp only [State.grantsAll_cons] at h
  obtain ⟨hpc, hsp, hread, -⟩ := h
  unfold pullOp
  rw [pullStart_granted hpc hsp, pull_granted (by simpa using hread), Flow.bind_ok, Flow.answer_ok, State.after_after]
  rfl

/-- Settles O41, by the pull sequence with what each instruction does with the byte. -/
theorem pullResults : Obligations.PullResults := by
  intro s
  exact ⟨rfl, rfl, rfl, rfl, fun h => ⟨pullOp_granted h, pullOp_granted h⟩⟩

/-- Flags move outside a write of `SP`. -/
theorem State.setSp_setP (s : State) (v : Byte) (f : Flags) : (s.setP f).setSp v = (s.setSp v).setP f := rfl

theorem execRti_granted {s : State}
    (h : s.grantsAll [s.dummyCycle s.pc, s.dummyCycle (stackAddr s.sp), s.readCycleAt (stackAddr (s.sp + 1#8)),
      s.readCycleAt (stackAddr (s.sp + 2#8)), s.readCycleAt (stackAddr (s.sp + 3#8))]) :
    execRti s = .next ((((s.after [s.dummyCycle s.pc, s.dummyCycle (stackAddr s.sp),
      s.readCycleAt (stackAddr (s.sp + 1#8)), s.readCycleAt (stackAddr (s.sp + 2#8)),
      s.readCycleAt (stackAddr (s.sp + 3#8))]).setSp (s.sp + 3#8)).setP
        (updateFromByte (s.byteAt (stackAddr (s.sp + 1#8))))).setPc
        (joinBytes (s.byteAt (stackAddr (s.sp + 3#8))) (s.byteAt (stackAddr (s.sp + 2#8))))).complete := by
  simp only [State.grantsAll_cons] at h
  obtain ⟨hpc, hsp, hflags, hlo, hhi, -⟩ := h
  have htwo : s.sp + 1#8 + 1#8 = s.sp + 2#8 := by rw [BitVec.add_assoc]; rfl
  have hthree : s.sp + 2#8 + 1#8 = s.sp + 3#8 := by rw [BitVec.add_assoc]; rfl
  unfold execRti
  rw [pullStart_granted hpc hsp, pull_granted (by simpa using hflags), Flow.bind_ok,
    pull_granted (by simpa [htwo] using hlo), Flow.bind_ok, pull_granted (by simpa [htwo, hthree] using hhi),
    Flow.bind_ok, Flow.answer_ok]
  simp [htwo, hthree, State.setSp_setP]

/-- Settles O39, by its granted sequence. -/
theorem rtiResult : Obligations.RtiResult := by
  intro s
  exact ⟨rfl, rfl, fun h => execRti_granted h⟩

/-! ## The status register -/

theorem getLsbD_flagBit (f : Bool) {i : Nat} (j : Nat) (hi : i < 8) :
    (flagBit f i).getLsbD j = (f && decide (i = j)) := by
  cases f with
  | false => simp [flagBit]
  | true =>
    simp only [flagBit, if_true, ← BitVec.twoPow_eq, BitVec.getLsbD_twoPow, hi, Bool.true_and, decide_true]

theorem statusByte_updateFromByte (b : Byte) : statusByte (updateFromByte b) = (b &&& 0xCF#8) ||| 0x20#8 := by
  revert b
  decide

/-- Settles O20, bit by bit. -/
theorem statusByteViews : Obligations.StatusByteViews := by
  refine ⟨fun p => ?_, fun p => rfl, fun b => ⟨rfl, rfl, rfl, rfl, rfl, rfl, statusByte_updateFromByte b⟩⟩
  simp (disch := decide) only [statusByte, BitVec.getLsbD_or, getLsbD_flagBit]
  simp

/-! ## The output ports -/

theorem doneReason_eq_some_iff (s : State) (r : DoneReason) : s.doneReason = some r ↔ s.e = .done r := by
  unfold State.doneReason
  split <;> simp_all

theorem cyclesPort_unbounded {s : State} (h : s.params.cycleCounterWidth = none) : s.cyclesPort = s.cycles := by
  simp only [State.cyclesPort, h]

theorem cyclesPort_wraps {s : State} {w : Nat} (h : s.params.cycleCounterWidth = some w) :
    s.cyclesPort = s.cycles % 2 ^ w := by
  simp only [State.cyclesPort, h]

/-- The bus ports show the last cycle. -/
theorem lastBusPorts_after_singleton (s : State) (c : BusCycle) :
    (s.after [c]).lastBusPorts = some (BusCycle.ports c) := rfl

/-- Settles O19, view by view. -/
theorem outputPorts : Obligations.OutputPorts := by
  intro s a v
  exact ⟨lastBusPorts_after_singleton s _, lastBusPorts_after_singleton s _, lastBusPorts_after_singleton s _,
    lastBusPorts_after_singleton s _, rfl, doneReason_eq_some_iff s, cyclesPort_unbounded, fun _ => cyclesPort_wraps⟩

end Sys2Proof.Machine
end

section
/-! PROOFS. Stack accesses that plain memory fails (R109, R110, R112, R233, R235), what an instruction keeps whatever
the bus answers (R46, R47, R53, R83, R182), and the four ends of a bus access (R41 to R43). -/

namespace Sys2Proof.Machine

open Sys2Proof

/-! ## Failing stack accesses -/

/-- A push instruction whose write fails, after its dummy cycle (R47, R109). -/
theorem pushOp_denied {value : State → Byte} {v : Byte} {s : State} (hv : value (s.after [s.dummyCycle s.pc]) = v)
    (hg : s.grantsAll [s.dummyCycle s.pc]) (hd : s.bus.denies (.write (stackAddr s.sp) v) = true) :
    pushOp value s = .next (s.failedWrite [s.dummyCycle s.pc] (stackAddr s.sp) v) := by
  unfold pushOp
  rw [dummyRead_granted (State.grantsAll_cons.1 hg).1, Flow.bind_ok, hv, push_denied (by simpa using hd)]
  simp

/-- The call whose first push fails, after its dummy cycle (R110). -/
theorem execJsr_denied_first {s : State} (target : Addr) (hg : s.grantsAll [s.dummyCycle (stackAddr s.sp)])
    (hd : s.bus.denies (.write (stackAddr s.sp) (hiByte s.pc)) = true) :
    execJsr target s = .next (s.failedWrite [s.dummyCycle (stackAddr s.sp)] (stackAddr s.sp) (hiByte s.pc)) := by
  unfold execJsr
  rw [dummyRead_granted (State.grantsAll_cons.1 hg).1, Flow.bind_ok, push_denied (by simpa using hd)]
  simp

/-- The call whose second push fails: the first pushed byte and its step of `SP` stay (R110, R235). -/
theorem execJsr_denied_second {s : State} (target : Addr)
    (hg : s.grantsAll [s.dummyCycle (stackAddr s.sp), .write (stackAddr s.sp) (hiByte s.pc)])
    (hd : s.bus.denies (.write (stackAddr (s.sp - 1#8)) (loByte s.pc)) = true) :
    execJsr target s = .next (((s.failedWrite [s.dummyCycle (stackAddr s.sp), .write (stackAddr s.sp) (hiByte s.pc)]
      (stackAddr (s.sp - 1#8)) (loByte s.pc)).setMem
        (s.bus.mem.write (stackAddr s.sp).toNat (hiByte s.pc))).setSp (s.sp - 1#8)) := by
  simp only [State.grantsAll_cons] at hg
  obtain ⟨hdummy, hpush, -⟩ := hg
  unfold execJsr
  rw [dummyRead_granted hdummy, Flow.bind_ok, push_granted (by simpa using hpush), Flow.bind_ok,
    push_denied ((Bus.denies_of_regions rfl _).trans hd)]
  simp

/-- A sequence whose first pull fails, after its two dummy cycles (R48, R109, R110). -/
theorem firstPull_denied {s : State} {k : Byte → State → Flow Unit}
    (hg : s.grantsAll [s.dummyCycle s.pc, s.dummyCycle (stackAddr s.sp)])
    (hd : s.bus.denies (s.readCycleAt (stackAddr (s.sp + 1#8))) = true) :
    ((dummyRead s.pc s).bind fun _ s => (dummyRead (stackAddr s.sp) s).bind fun _ s => (pull s).bind k).answer =
      .next (s.failedRead [s.dummyCycle s.pc, s.dummyCycle (stackAddr s.sp)] (stackAddr (s.sp + 1#8))) := by
  simp only [State.grantsAll_cons] at hg
  obtain ⟨hpc, hsp, -⟩ := hg
  rw [pullStart_granted hpc hsp, pull_denied (by simpa using hd)]
  simp

/-- A sequence goes on with the first pulled byte, after its two dummy cycles and that pull. -/
theorem firstPull_granted {s : State} {k : Byte → State → Flow Unit}
    (hg : s.grantsAll [s.dummyCycle s.pc, s.dummyCycle (stackAddr s.sp), s.readCycleAt (stackAddr (s.sp + 1#8))]) :
    ((dummyRead s.pc s).bind fun _ s => (dummyRead (stackAddr s.sp) s).bind fun _ s => (pull s).bind k) =
      k (s.byteAt (stackAddr (s.sp + 1#8))) ((s.after [s.dummyCycle s.pc, s.dummyCycle (stackAddr s.sp),
        s.readCycleAt (stackAddr (s.sp + 1#8))]).setSp (s.sp + 1#8)) := by
  simp only [State.grantsAll_cons] at hg
  obtain ⟨hpc, hsp, hpull, -⟩ := hg
  rw [pullStart_granted hpc hsp, pull_granted (by simpa using hpull), Flow.bind_ok]
  simp

/-! The stack byte of the second and of the third pull, counted from the first `SP`. -/

theorem sp_add_one_add_one (sp : Byte) : sp + 1#8 + 1#8 = sp + 2#8 := by
  rw [BitVec.add_assoc]
  rfl

theorem sp_add_two_add_one (sp : Byte) : sp + 2#8 + 1#8 = sp + 3#8 := by
  rw [BitVec.add_assoc]
  rfl

/-- RTS whose second pull fails (R110, R235). -/
theorem execRts_denied_second {s : State}
    (hg : s.grantsAll [s.dummyCycle s.pc, s.dummyCycle (stackAddr s.sp), s.readCycleAt (stackAddr (s.sp + 1#8))])
    (hd : s.bus.denies (s.readCycleAt (stackAddr (s.sp + 2#8))) = true) :
    execRts s = .next ((s.failedRead [s.dummyCycle s.pc, s.dummyCycle (stackAddr s.sp),
      s.readCycleAt (stackAddr (s.sp + 1#8))] (stackAddr (s.sp + 2#8))).setSp (s.sp + 1#8)) := by
  unfold execRts
  rw [firstPull_granted hg, pull_denied (by simpa [sp_add_one_add_one] using hd)]
  simp [sp_add_one_add_one]

/-- RTI whose second pull fails: the flags it pulled stay (R110, R235). -/
theorem execRti_denied_second {s : State}
    (hg : s.grantsAll [s.dummyCycle s.pc, s.dummyCycle (stackAddr s.sp), s.readCycleAt (stackAddr (s.sp + 1#8))])
    (hd : s.bus.denies (s.readCycleAt (stackAddr (s.sp + 2#8))) = true) :
    execRti s = .next (((s.failedRead [s.dummyCycle s.pc, s.dummyCycle (stackAddr s.sp),
      s.readCycleAt (stackAddr (s.sp + 1#8))] (stackAddr (s.sp + 2#8))).setSp (s.sp + 1#8)).setP
        (updateFromByte (s.byteAt (stackAddr (s.sp + 1#8))))) := by
  unfold execRti
  rw [firstPull_granted hg, pull_denied (by simpa [sp_add_one_add_one] using hd)]
  simp [sp_add_one_add_one]

/-- RTI whose third pull fails: the flags and both steps of `SP` stay (R110, R235). -/
theorem execRti_denied_third {s : State}
    (hg : s.grantsAll [s.dummyCycle s.pc, s.dummyCycle (stackAddr s.sp), s.readCycleAt (stackAddr (s.sp + 1#8)),
      s.readCycleAt (stackAddr (s.sp + 2#8))])
    (hd : s.bus.denies (s.readCycleAt (stackAddr (s.sp + 3#8))) = true) :
    execRti s = .next (((s.failedRead [s.dummyCycle s.pc, s.dummyCycle (stackAddr s.sp),
      s.readCycleAt (stackAddr (s.sp + 1#8)), s.readCycleAt (stackAddr (s.sp + 2#8))]
        (stackAddr (s.sp + 3#8))).setSp (s.sp + 2#8)).setP
        (updateFromByte (s.byteAt (stackAddr (s.sp + 1#8))))) := by
  obtain ⟨hfirst, hsecond⟩ := (State.grantsAll_append (cs := [_, _, _])).1 hg
  unfold execRti
  rw [firstPull_granted hfirst,
    pull_granted (by simpa [sp_add_one_add_one] using (State.grantsAll_cons.1 hsecond).1), Flow.bind_ok,
    pull_denied (by simpa [sp_add_one_add_one, sp_add_two_add_one] using hd)]
  simp [sp_add_one_add_one, sp_add_two_add_one, State.setSp_setP]

/-- Settles O43, by the first stack access of each sequence, failed. -/
theorem stackBusFault : Obligations.StackBusFault := by
  intro s
  refine ⟨fun hg hd => ⟨pushOp_denied rfl hg hd, pushOp_denied rfl hg hd⟩,
    fun hg hd target => execJsr_denied_first target hg hd, fun hg hd i hi => ?_⟩
  rcases hi with rfl | rfl | rfl | rfl <;> exact firstPull_denied hg hd

/-- Settles O57, by the later stack accesses of JSR, RTS and RTI, failed after the granted ones. -/
theorem laterStackBusFault : Obligations.LaterStackBusFault := by
  intro s target
  exact ⟨execJsr_denied_second target,
    fun hg hd => ⟨execRts_denied_second hg hd, execRti_denied_second hg hd⟩, execRti_denied_third⟩

/-! ## Frames, on any bus -/

/-- An instruction ends at a boundary or in `Done` (R82, R233), byte $00 included (R218). -/
theorem exec_ended {i : Instr} {s t : State} (h : exec i s = .next t) : t.e = .fetchOpcode ∨ ∃ r, t.e = .done r := by
  cases hr : i.row with
  | some row =>
    refine (exec_outcome hr h).ended.imp_right fun hf => ?_
    rcases hf with ⟨a, he, -⟩ | ⟨a, v, he, -⟩ <;> exact ⟨_, he⟩
  | none =>
    cases eq_halt_of_row_none hr
    cases h
    exact .inr ⟨_, rfl⟩

/-- Settles O46: every meaning runs its bus cycles and ends at a boundary or in `Done`. -/
theorem instructionKeepsTheRest : Obligations.InstructionKeepsTheRest := by
  intro i s t h
  have hran := (exec_legal h).1
  exact ⟨hran.params, hran.rst, hran.regions, exec_ended h, hran.counted⟩

/-- A push instruction changes at most the byte it pushes to (R46, R47). -/
theorem pushOp_keeps_other_bytes {value : State → Byte} {s t : State} {a : Addr} (h : pushOp value s = .next t)
    (ha : a ≠ stackAddr s.sp) : t.byteAt a = s.byteAt a := by
  rcases pushOp_outcome h with ⟨u, hu, rfl⟩ | hd
  · exact hu.others a ha
  · exact hd.byteAt a

/-- Settles O49, by the outcomes of the push sequence and of JSR. -/
theorem pushKeepsOtherBytes : Obligations.PushKeepsOtherBytes := by
  intro s t a
  refine ⟨fun h ha => h.elim (pushOp_keeps_other_bytes · ha) (pushOp_keeps_other_bytes · ha),
    fun target h hhigh hlow => ?_⟩
  exact (execJsr_outcome h).1.others a fun hs => hs.elim hhigh hlow

/-! ## The ends of a bus access -/

/-! Each end of an access is one value of the collaborator's answer; each elapses one cycle (R83). -/

theorem busRead_of_answer {s : State} {a : Addr} {d : Byte} (h : s.bus.readAnswer a = some d) :
    busRead a s = .ok d (s.after [.read a d]) := by
  simp only [busRead, h]
  rfl

theorem busRead_of_failure {s : State} {a : Addr} (h : s.bus.readAnswer a = none) :
    busRead a s = .stopped (s.failedRead [] a) := by
  simp only [busRead, h]
  rfl

theorem busWrite_of_answer {s : State} {a : Addr} {v : Byte} {m : Memory} (h : s.bus.writeAnswer a v = some m) :
    busWrite a v s = .ok () ((s.after [.write a v]).setMem m) := by
  simp only [busWrite, h]
  rfl

theorem busWrite_of_failure {s : State} {a : Addr} {v : Byte} (h : s.bus.writeAnswer a v = none) :
    busWrite a v s = .stopped (s.failedWrite [] a v) := by
  simp only [busWrite, h]
  rfl

/-- Settles O18, by the collaborator's answer to each access. -/
theorem busAccesses : Obligations.BusAccesses := by
  intro s a v
  exact ⟨fun _ => busRead_of_answer, busRead_of_failure, fun _ => busWrite_of_answer, busWrite_of_failure⟩

end Sys2Proof.Machine
end

section
/-! PROOFS. What the encoder and the decoder say of each other (R60 to R62), and the fetches of an instruction that
plain memory grants (R56, R81, R101 to R110). -/

namespace Sys2Proof.Machine

open Sys2Proof

/-! ## An instruction's bytes -/

/-- The bytes of an instruction, seen from its row: the opcode, then as many operand bytes as the format takes, from
which the format assembles the instruction (R60 to R63). -/
structure EncodedBy (row : Row) (i : Instr) : Prop where
  opcode : encode i = i.opcode :: (encode i).tail
  length : (encode i).tail.length = row.format.operandBytes
  assemble : ∀ rest, row.format.assemble i.opcode ((encode i).tail ++ rest) = .ok (i, rest)

/-- Every instruction's bytes are those of its row. A two-byte operand is split by the encoder and joined again. -/
theorem encodedBy_row {i : Instr} {row : Row} (h : i.row = some row) : EncodedBy row i := by
  cases i <;> simp at h <;> subst h
  case oraAbs a | aslAbs a | oraAbsY a | oraAbsX a | aslAbsX a | jsr a | bitAbs a | andAbs a | rolAbs a |
      andAbsY a | andAbsX a | rolAbsX a | jmpAbs a | eorAbs a | lsrAbs a | eorAbsY a | eorAbsX a | lsrAbsX a |
      jmpInd a | adcAbs a | rorAbs a | adcAbsY a | adcAbsX a | rorAbsX a | styAbs a | staAbs a | stxAbs a |
      staAbsY a | staAbsX a | ldyAbs a | ldaAbs a | ldxAbs a | ldaAbsY a | ldyAbsX a | ldaAbsX a | ldxAbsY a |
      cpyAbs a | cmpAbs a | decAbs a | cmpAbsY a | cmpAbsX a | decAbsX a | cpxAbs a | sbcAbs a | incAbs a |
      sbcAbsY a | sbcAbsX a | incAbsX a =>
    exact ⟨rfl, rfl, fun _ => by simp [encode, Format.assemble]⟩
  all_goals exact ⟨rfl, rfl, fun _ => rfl⟩

theorem opcode_ne_haltByte {i : Instr} {row : Row} (h : i.row = some row) : i.opcode ≠ haltByte := by
  intro hop
  rw [Instr.row, hop, haltByte_not_dispatched] at h
  cases h

/-- The decoder gives back an encoded instruction, whatever bytes follow (R60 to R62). -/
theorem decode_encode_append (i : Instr) (rest : List Byte) : decode (encode i ++ rest) = .ok (i, rest) := by
  cases hr : i.row with
  | some row =>
    obtain ⟨hop, -, hassemble⟩ := encodedBy_row hr
    rw [hop, List.cons_append]
    simp only [decode, if_neg (opcode_ne_haltByte hr), show dispatch i.opcode = some row from hr, hassemble]
  | none =>
    cases eq_halt_of_row_none hr
    rfl

/-- JSR alone is of the class that leaves an operand byte for later (R98, R110). -/
theorem eq_jsr_of_call {i : Instr} {row : Row} (h : i.row = some row) (hc : row.cls = .call) : ∃ a, i = .jsr a := by
  cases i <;> simp at h <;> subst h
  case jsr a => exact ⟨a, rfl⟩
  all_goals cases hc

theorem leadingFetches_of_ne_call {row : Row} (hc : row.cls ≠ .call) :
    Row.leadingFetches row = row.format.operandBytes := by
  unfold Row.leadingFetches
  split
  · contradiction
  · rfl

theorem fetchedBytes_of_ne_call {i : Instr} {row : Row} (h : i.row = some row) (hc : row.cls ≠ .call) :
    Instr.fetchedBytes i = encode i := by
  unfold Instr.fetchedBytes
  split
  · rw [Instr.row_jsr] at h
    cases h
    exact absurd rfl hc
  · rfl

/-! ## Fetches that plain memory grants -/

/-- The state after the fetches of the bytes at `PC` (R81). -/
def State.fetched (s : State) (bs : List Byte) : State :=
  (s.after (fetchCyclesAt s.pc bs)).setPc (s.pc + BitVec.ofNat 16 bs.length)

@[simp] theorem State.byteAt_fetched (s : State) (bs : List Byte) (a : Addr) : (s.fetched bs).byteAt a = s.byteAt a := rfl

@[simp] theorem State.grants_fetched (s : State) (bs : List Byte) (c : BusCycle) :
    (s.fetched bs).bus.grants c = s.bus.grants c := Bus.grants_of_regions rfl c

theorem State.fetched_nil (s : State) : s.fetched [] = s := by
  simp [State.fetched, fetchCyclesAt]
  rfl

/-- The first byte and the others are fetched one after the other. -/
theorem State.fetched_fetched (s : State) (b : Byte) (bs : List Byte) :
    (s.fetched [b]).fetched bs = s.fetched (b :: bs) := by
  have hpc : s.pc + 1#16 + BitVec.ofNat 16 bs.length = s.pc + BitVec.ofNat 16 (bs.length + 1) := by
    rw [BitVec.add_assoc, Nat.add_comm, BitVec.ofNat_add]
  simp [State.fetched, fetchCyclesAt, hpc]

/-- What plain memory holds depends on its bytes alone. -/
theorem State.holds_of_byteAt_eq {s t : State} (h : ∀ a, t.byteAt a = s.byteAt a) {a : Addr} {bs : List Byte}
    (hs : s.holds a bs) : t.holds a bs := by
  induction bs generalizing a with
  | nil => trivial
  | cons b bs ih => exact ⟨(h a).trans hs.1, ih hs.2⟩

theorem fetchByte_granted {s : State} {b : Byte} (hb : s.byteAt s.pc = b)
    (hg : s.bus.grants (.read s.pc b) = true) : fetchByte s = .ok b (s.fetched [b]) := by
  subst hb
  unfold fetchByte
  rw [busRead_granted hg]
  rfl

/-- After the first fetch the other bytes lie at `PC`. -/
theorem State.holds_fetched {s : State} {b : Byte} {bs : List Byte} (hs : s.holds s.pc (b :: bs)) :
    (s.fetched [b]).holds (s.fetched [b]).pc bs :=
  State.holds_of_byteAt_eq (State.byteAt_fetched s [b]) hs.2

/-- After the first fetch the other fetches are still granted. -/
theorem State.grantsAll_fetched {s : State} {b : Byte} {bs : List Byte}
    (hg : s.grantsAll (fetchCyclesAt s.pc (b :: bs))) :
    (s.fetched [b]).grantsAll (fetchCyclesAt (s.fetched [b]).pc bs) := fun c hc => by
  rw [State.grants_fetched]
  exact (State.grantsAll_cons.1 hg).2 c hc

theorem fetchBytes_granted {s : State} {bs : List Byte} (hs : s.holds s.pc bs)
    (hg : s.grantsAll (fetchCyclesAt s.pc bs)) : fetchBytes bs.length s = .ok bs (s.fetched bs) := by
  induction bs generalizing s with
  | nil => rw [State.fetched_nil]; rfl
  | cons b bs ih =>
    rw [List.length_cons, fetchBytes, fetchByte_granted hs.1 (State.grantsAll_cons.1 hg).1, Flow.bind_ok,
      ih (State.holds_fetched hs) (State.grantsAll_fetched hg), Flow.bind_ok, State.fetched_fetched]

/-- The fetches of a dispatched opcode and its leading operand bytes, when these and the byte left for later are an
instruction's encoding (R81, R110). -/
theorem fetchInstr_of_dispatched {i : Instr} {row : Row} {op : Byte} {operands : List Byte} {s : State}
    (hrow : dispatch op = some row) (hlen : operands.length = Row.leadingFetches row)
    (hs : s.holds s.pc (op :: operands)) (hg : s.grantsAll (fetchCyclesAt s.pc (op :: operands)))
    (hi : op :: operands ++ laterBytes (row.format.operandBytes - Row.leadingFetches row)
      (s.fetched (op :: operands)) = encode i) :
    fetchInstr s = .ok i (s.fetched (op :: operands)) := by
  have hoperands := fetchBytes_granted (State.holds_fetched hs) (State.grantsAll_fetched hg)
  have hdecode := decode_encode_append i []
  rw [hlen, State.fetched_fetched] at hoperands
  rw [List.append_nil] at hdecode
  unfold fetchInstr
  rw [fetchByte_granted hs.1 (State.grantsAll_cons.1 hg).1, Flow.bind_ok]
  simp only [hrow, hoperands, Flow.bind_ok, hi, hdecode]

/-- The fetches of the instruction whose encoding lies at `PC` end at that instruction (R56, R60, R81). -/
theorem fetchInstr_granted {i : Instr} {s : State} (hs : s.holds s.pc (encode i))
    (hg : s.grantsAll (fetchCyclesAt s.pc (Instr.fetchedBytes i))) :
    fetchInstr s = .ok i (s.fetched (Instr.fetchedBytes i)) := by
  cases hr : i.row with
  | none =>
    cases eq_halt_of_row_none hr
    have hop := fetchByte_granted hs.1 (State.grantsAll_cons.1 hg).1
    unfold fetchInstr
    rw [hop]
    rfl
  | some row =>
    by_cases hc : row.cls = .call
    · obtain ⟨a, rfl⟩ := eq_jsr_of_call hr hc
      obtain ⟨hop, hlow, hhigh, -⟩ := hs
      cases (Instr.row_jsr a).symm.trans hr
      refine fetchInstr_of_dispatched hr rfl ⟨hop, hlow, trivial⟩ hg ?_
      rw [BitVec.add_assoc] at hhigh
      exact congrArg (fun high => [0x20#8, loByte a, high]) hhigh
    · obtain ⟨hop, hlen, -⟩ := encodedBy_row hr
      have hlead := leadingFetches_of_ne_call hc
      rw [fetchedBytes_of_ne_call hr hc, hop] at hg ⊢
      rw [hop] at hs
      refine fetchInstr_of_dispatched hr (hlen.trans hlead.symm) hs hg ?_
      rw [hlead, Nat.sub_self, ← hop]
      exact List.append_nil _

/-- Settles O11, by the granted fetches. -/
theorem stepRunsDecodedInstruction : Obligations.StepRunsDecodedInstruction := by
  intro i s hrst he hs hg
  unfold step runInstr
  rw [fetchInstr_granted hs hg]
  simp only [hrst, he]
  rfl

end Sys2Proof.Machine
end

section
/-! PROOFS. The encoding family: the decoder takes what the encoder gives and nothing else (R60 to R65), and the opcodes
outside the map end execution at their fetch (R70, R231). -/

namespace Sys2Proof

open Sys2Proof.Machine

/-- Settles O1: every instruction is decoded from its encoding, so a well-formed one is. -/
theorem encodeThenDecode : Obligations.EncodeThenDecode := fun i rest _ => decode_encode_append i rest

/-! ## What the decoder takes -/

/-- The instructions a format makes are encoded by the opcode and the operand bytes it makes them from (R61, R63). -/
def Format.Encodes (op : Byte) : Format → Prop
  | .f1 i => encode i = [op]
  | .f2 make => ∀ b, encode (make b) = [op, b]
  | .f3 make => ∀ a, encode (make a) = [op, loByte a, hiByte a]

/-- The instruction a format makes from operand bytes $00. -/
def Format.sample : Format → Instr
  | .f1 i => i
  | .f2 make => make 0x00#8
  | .f3 make => make 0x0000#16

theorem format_encodes_of_row {i : Instr} {row : Row} (h : i.row = some row) : row.format.Encodes i.opcode := by
  cases i <;> simp at h <;> subst h
  case php | aslAcc | clc | plp | rolAcc | sec | rti | pha | lsrAcc | cli | rts | pla | rorAcc | sei | dey | txa |
      tya | txs | tay | tax | clv | tsx | iny | dex | cld | inx | nop | sed => exact rfl
  all_goals exact fun _ => rfl

/-- The table's entry at an opcode makes instructions of that opcode (R64). -/
theorem opcode_sample {op : Byte} {row : Row} (h : dispatch op = some row) : row.format.sample.opcode = op := by
  have hall : ∀ op : Byte, (dispatch op).all (fun row => row.format.sample.opcode == op) = true := by decide
  simpa [h] using hall op

/-- Every entry of the table makes instructions that are encoded by its opcode and their operand bytes. -/
theorem format_encodes_of_dispatch {op : Byte} {row : Row} (h : dispatch op = some row) :
    row.format.Encodes op := by
  have hop := opcode_sample h
  have hrow : row.format.sample.row = some row := by rw [Instr.row, hop, h]
  exact hop ▸ format_encodes_of_row hrow

/-- Operand assembly takes the operand bytes of the instruction it makes, and no others (R61, R63). -/
theorem Format.Encodes.of_assemble {op : Byte} {f : Format} (hf : f.Encodes op) {bs rest : List Byte} {i : Instr}
    (h : f.assemble op bs = .ok (i, rest)) : op :: bs = encode i ++ rest := by
  match f, bs, h with
  | .f1 _, _, rfl => exact congrArg (· ++ rest) hf.symm
  | .f2 _, b :: _, rfl => exact congrArg (· ++ rest) (hf b).symm
  | .f3 _, lo :: hi :: _, rfl => simp [hf (joinBytes hi lo)]

/-- Settles O2: a byte that is decoded is $00 or has an entry, whose operand assembly takes an encoding. -/
theorem decodeThenEncode : Obligations.DecodeThenEncode := by
  intro bytes rest i h
  cases bytes with
  | nil => cases h
  | cons op bs =>
    simp only [decode] at h
    split at h
    · next hop =>
      cases h
      exact congrArg (· :: rest) hop
    · split at h
      · cases h
      · next row hrow => exact (format_encodes_of_dispatch hrow).of_assemble h

/-! ## The byte strings that are encodings -/

/-- An entry's format takes as many operand bytes as its mode (R62). -/
theorem format_operandBytes_eq_mode {op : Byte} {row : Row} (h : dispatch op = some row) :
    row.format.operandBytes = row.mode.operandBytes := by
  have hall : ∀ op : Byte,
      (dispatch op).all (fun row => row.format.operandBytes == row.mode.operandBytes) = true := by decide
  simpa [h] using hall op

theorem operandCount_of_dispatch {op : Byte} {row : Row} (h : dispatch op = some row) :
    operandCount op = row.format.operandBytes := by
  simp only [operandCount, h, format_operandBytes_eq_mode h]

theorem bytesWellFormed_cons_iff {op : Byte} {operands : List Byte} :
    bytesWellFormed (op :: operands) = true ↔
      (op = haltByte ∨ ∃ row, dispatch op = some row) ∧ operands.length = operandCount op := by
  simp [bytesWellFormed, opcodeKnown, lengthRight, Option.isSome_iff_exists]

/-- The encoding of every instruction passes the checks. -/
theorem bytesWellFormed_encode (i : Instr) : bytesWellFormed (encode i) = true := by
  cases hr : i.row with
  | none =>
    cases eq_halt_of_row_none hr
    rfl
  | some row =>
    obtain ⟨hop, hlen, -⟩ := encodedBy_row hr
    rw [hop, bytesWellFormed_cons_iff]
    exact ⟨.inr ⟨row, hr⟩, hlen.trans (operandCount_of_dispatch hr).symm⟩

/-- A byte string that passes the checks is decoded. -/
theorem decode_of_bytesWellFormed {bytes : List Byte} (h : bytesWellFormed bytes = true) :
    ∃ i rest, decode bytes = .ok (i, rest) := by
  cases bytes with
  | nil => cases h
  | cons op operands =>
    obtain ⟨rfl | ⟨row, hrow⟩, hlen⟩ := bytesWellFormed_cons_iff.1 h
    · exact ⟨.halt, operands, rfl⟩
    · exact decode_of_enough hrow (hlen.trans (operandCount_of_dispatch hrow)).ge

/-- The opcode fixes the length, so no byte can follow a string that passes the checks (R62). -/
theorem eq_nil_of_bytesWellFormed_append {bytes rest : List Byte} (h : bytesWellFormed bytes = true)
    (happend : bytesWellFormed (bytes ++ rest) = true) : rest = [] := by
  cases bytes with
  | nil => cases h
  | cons op operands =>
    obtain ⟨-, hlen⟩ := bytesWellFormed_cons_iff.1 h
    rw [List.cons_append] at happend
    obtain ⟨-, hlen'⟩ := bytesWellFormed_cons_iff.1 happend
    rw [List.length_append] at hlen'
    exact List.eq_nil_of_length_eq_zero (by omega)

/-- Settles O3: a byte string that passes is decoded, and what the decoder takes of it leaves nothing over. -/
theorem wellFormedBytesAreEncodings : Obligations.WellFormedBytesAreEncodings := by
  intro bytes
  constructor
  · intro h
    obtain ⟨i, rest, hdecode⟩ := decode_of_bytesWellFormed h
    have hbytes := decodeThenEncode bytes rest i hdecode
    have hrest := eq_nil_of_bytesWellFormed_append (bytesWellFormed_encode i) (hbytes ▸ h)
    exact ⟨i, by rw [hbytes, hrest, List.append_nil]⟩
  · rintro ⟨i, rfl⟩
    exact bytesWellFormed_encode i

/-- Settles O4, by running the decoder on the seven words. -/
theorem sampleWordsDecode : Obligations.SampleWordsDecode := by
  unfold Obligations.SampleWordsDecode
  decide

end Sys2Proof

namespace Sys2Proof.Machine

open Sys2Proof

/-! ## The unknown opcodes -/

/-- The bytes R70 lists have no entry in the table, and none of them is byte $00. -/
theorem not_known_of_mem_unknownOpcodes {op : Byte} (h : op ∈ unknownOpcodes) :
    dispatch op = none ∧ op ≠ haltByte := by
  have hall : ∀ op ∈ unknownOpcodes, (dispatch op).isNone = true ∧ op ≠ haltByte := by decide
  exact (hall op h).imp_left Option.isNone_iff_eq_none.1

theorem fetchByte_of_answer {s : State} {op : Byte} (h : s.bus.readAnswer s.pc = some op) :
    fetchByte s = .ok op ((s.after [.read s.pc op]).setPc (s.pc + 1#16)) := by
  unfold fetchByte
  rw [busRead_of_answer h]
  rfl

/-- The fetch of a byte that is no opcode ends in `Done` with `PC` past it (R231). -/
theorem fetchInstr_of_unknown {s : State} {op : Byte} (h : s.bus.readAnswer s.pc = some op)
    (hnone : dispatch op = none) (hne : op ≠ haltByte) :
    fetchInstr s = .stopped (takeFatal (.unknownOpcode op) ((s.after [.read s.pc op]).setPc (s.pc + 1#16))) := by
  unfold fetchInstr
  rw [fetchByte_of_answer h, Flow.bind_ok]
  simp only [hnone, decode, if_neg hne]

/-- Settles O6, by the fetch of a byte outside the map. -/
theorem unknownOpcodeStops : Obligations.UnknownOpcodeStops := by
  intro s op hop hrst he hread
  obtain ⟨hnone, hne⟩ := not_known_of_mem_unknownOpcodes hop
  unfold step runInstr
  rw [fetchInstr_of_unknown hread hnone hne]
  simp only [hrst, he]
  rfl

end Sys2Proof.Machine
end

section
/-! PROOFS. The meaning of an instruction, read off its row: the operation of the mnemonic, the mode and the operand
bytes give the sequence and its operand (R84, R87, R98). What is proved once for a sequence holds so for every
instruction that runs it. -/

namespace Sys2Proof.Machine

open Sys2Proof

/-! ## Rows -/

/-- The class an operation has in a mode (R98). -/
def Operation.cls (m : Mode) : Operation → OpClass
  | .read _ => .read
  | .write _ => .write
  | .rmw _ => if m = .accumulator then .accumulator else .rmw
  | .implied _ => .implied
  | .branch _ => .branch
  | .push _ => .push
  | .pull _ => .pull
  | .jump => if m = .absolute then .jump else .jumpIndirect
  | .call => .call
  | .ret => .ret
  | .rti => .rti

/-- The modes with a memory operand (R87). -/
def Mode.isMemory (m : Mode) : Bool :=
  m ∈ [.zeroPage, .zeroPageX, .zeroPageY, .absolute, .absoluteX, .absoluteY, .indirectX, .indirectY]

/-- The modes an operation has a sequence in (R100 to R110). -/
def Operation.hasMode (m : Mode) : Operation → Bool
  | .read _ => m == .immediate || Mode.isMemory m
  | .write _ => Mode.isMemory m
  | .rmw _ => m ∈ [.accumulator, .zeroPage, .zeroPageX, .absolute, .absoluteX]
  | .jump => m ∈ [.absolute, .absoluteIndirect]
  | .call => m == .absolute
  | .branch _ => m == .relative
  | _ => m == .implied

theorem cls_eq_of_dispatch {op : Byte} {row : Row} (h : dispatch op = some row) :
    row.cls = (Mnemonic.operation row.mnemonic).cls row.mode := by
  have hall : ∀ op : Byte, (dispatch op).all
      (fun row => row.cls == (Mnemonic.operation row.mnemonic).cls row.mode) = true := by decide
  simpa [h] using hall op

theorem hasMode_of_dispatch {op : Byte} {row : Row} (h : dispatch op = some row) :
    (Mnemonic.operation row.mnemonic).hasMode row.mode = true := by
  have hall : ∀ op : Byte, (dispatch op).all
      (fun row => (Mnemonic.operation row.mnemonic).hasMode row.mode) = true := by decide
  simpa [h] using hall op

/-! ## The sequence of an operation -/

/-- What is done with one operand byte, an immediate byte or a branch offset (R63). Other bytes are no operand of it:
the state is answered as it is. -/
def onByte (k : Byte → State → Answer) : List Byte → State → Answer
  | [v] => k v
  | _ => .next

/-- What is done with a two-byte operand that is a target (R63). -/
def onTarget (k : Addr → State → Answer) : List Byte → State → Answer
  | [lo, hi] => k (joinBytes hi lo)
  | _ => .next

/-- What is done with a memory operand (R63, R87). -/
def onOperand (m : Mode) (k : MemOperand → State → Answer) (bs : List Byte) : State → Answer :=
  match Mode.memOperand m bs with
  | some o => k o
  | none => .next

/-- The sequence of an operation at its mode and operand bytes (R98 to R110). -/
def Operation.meaning (m : Mode) (bs : List Byte) : Operation → State → Answer
  | .read op =>
    if m = .immediate then onByte (fun v => readImm v op) bs else onOperand m (fun o => readMem o op) bs
  | .write value => onOperand m (fun o => writeMem o value) bs
  | .rmw op =>
    if m = .accumulator then impliedOp (onAccumulator op) else onOperand m (fun o => modifyMem o op) bs
  | .implied op => impliedOp op
  | .branch cond => onByte (branchIf cond) bs
  | .push value => pushOp value
  | .pull op => pullOp op
  | .jump => onTarget (if m = .absolute then execJmpAbs else execJmpInd) bs
  | .call => onTarget execJsr bs
  | .ret => execRts
  | .rti => execRti

theorem onByte_outcome {k : Byte → State → Answer} {bs : List Byte} {s t : State} (h : onByte k bs s = .next t) :
    (∃ v, k v s = .next t) ∨ s = t := by
  unfold onByte at h
  split at h
  · exact .inl ⟨_, h⟩
  · exact .inr (Host.Outcome.next.inj h)

theorem onTarget_outcome {k : Addr → State → Answer} {bs : List Byte} {s t : State}
    (h : onTarget k bs s = .next t) : (∃ a, k a s = .next t) ∨ s = t := by
  unfold onTarget at h
  split at h
  · exact .inl ⟨_, h⟩
  · exact .inr (Host.Outcome.next.inj h)

theorem onOperand_outcome {m : Mode} {k : MemOperand → State → Answer} {bs : List Byte} {s t : State}
    (h : onOperand m k bs s = .next t) : (∃ o, k o s = .next t) ∨ s = t := by
  cases hm : Mode.memOperand m bs with
  | none =>
    rw [onOperand, hm] at h
    exact .inr (Host.Outcome.next.inj h)
  | some o =>
    rw [onOperand, hm] at h
    exact .inl ⟨o, h⟩

theorem onOperand_of_some {m : Mode} {k : MemOperand → State → Answer} {bs : List Byte} {o : MemOperand}
    (h : Mode.memOperand m bs = some o) : onOperand m k bs = k o := by
  rw [onOperand, h]

/-- The meaning of a row at its operand bytes. -/
def Row.meaning (row : Row) (bs : List Byte) : State → Answer :=
  (Mnemonic.operation row.mnemonic).meaning row.mode bs

/-- Every instruction means what its row means at its operand bytes. A two-byte operand is split by the encoder and
joined again. -/
theorem exec_eq_meaning {i : Instr} {row : Row} (h : i.row = some row) : exec i = Row.meaning row (encode i).tail := by
  cases i <;> simp at h <;> subst h
  case oraAbs a | aslAbs a | oraAbsY a | oraAbsX a | aslAbsX a | jsr a | bitAbs a | andAbs a | rolAbs a |
      andAbsY a | andAbsX a | rolAbsX a | jmpAbs a | eorAbs a | lsrAbs a | eorAbsY a | eorAbsX a | lsrAbsX a |
      jmpInd a | adcAbs a | rorAbs a | adcAbsY a | adcAbsX a | rorAbsX a | styAbs a | staAbs a | stxAbs a |
      staAbsY a | staAbsX a | ldyAbs a | ldaAbs a | ldxAbs a | ldaAbsY a | ldyAbsX a | ldaAbsX a | ldxAbsY a |
      cpyAbs a | cmpAbs a | decAbs a | cmpAbsY a | cmpAbsX a | decAbsX a | cpxAbs a | sbcAbs a | incAbs a |
      sbcAbsY a | sbcAbsX a | incAbsX a =>
    simp [encode, Row.meaning, Mnemonic.operation, Operation.meaning, onOperand, onTarget, Mode.memOperand]
    rfl
  all_goals rfl

end Sys2Proof.Machine
end

section
/-! PROOFS. The control transfers (R108, R110, R181 to R183, R185 to R193), granted and with a failing access. -/

namespace Sys2Proof.Machine

open Sys2Proof

/-! ## Granted -/

/-- The dummy cycles of a taken branch (R108): the second one if the target is in another page. -/
def takenCycles (offset : Byte) (s : State) : List BusCycle :=
  s.dummyCycle s.pc ::
    (if hiByte (branchTarget s.pc offset) ≠ hiByte s.pc then
      [s.dummyCycle (joinBytes (hiByte s.pc) (loByte (branchTarget s.pc offset)))] else [])

theorem takeBranch_granted {offset : Byte} {s : State} (h : s.grantsAll (takenCycles offset s)) :
    takeBranch offset s = .ok () ((s.after (takenCycles offset s)).setPc (branchTarget s.pc offset)) := by
  obtain ⟨hfirst, hsecond⟩ := State.grantsAll_cons.1 h
  unfold takeBranch takenCycles
  rw [dummyRead_granted hfirst, Flow.bind_ok]
  by_cases hpage : hiByte (branchTarget s.pc offset) = hiByte s.pc
  · simp [branchCrosses, hpage]
  · rw [if_pos hpage] at hsecond ⊢
    have hwrong := (State.grantsAll_cons.1 hsecond).1
    simp only [branchCrosses, hpage, ne_eq, not_false_eq_true, decide_true, if_true]
    rw [dummyRead_granted (by exact (Bus.grants_of_regions rfl _).trans hwrong)]
    simp

theorem branchIf_granted {cond : Flags → Bool} {offset : Byte} {s : State} (hc : cond s.p = true)
    (h : s.grantsAll (takenCycles offset s)) :
    branchIf cond offset s =
      .next ((s.after (takenCycles offset s)).setPc (branchTarget s.pc offset)).complete := by
  rw [branchIf, if_pos hc, takeBranch_granted h, Flow.answer_ok]

theorem branchIf_not_taken {cond : Flags → Bool} {offset : Byte} {s : State} (hc : cond s.p = false) :
    branchIf cond offset s = .next s.complete := by
  rw [branchIf, if_neg (by simp [hc]), Flow.answer_ok]

theorem length_takenCycles (offset : Byte) (s : State) :
    (takenCycles offset s).length = if hiByte (branchTarget s.pc offset) = hiByte s.pc then 1 else 2 := by
  unfold takenCycles
  by_cases h : hiByte (branchTarget s.pc offset) = hiByte s.pc <;> simp [h]

/-- A listed branch has its opcode and two bytes, and branches on the listed condition (R186 to R193). -/
theorem branchForms_spec {offset op : Byte} {i : Instr} {p : Flags} {taken : Bool}
    (h : (op, i, taken) ∈ branchForms offset p) :
    i.opcode = op ∧ (Instr.fetchedBytes i).length = 2 ∧
      ∃ cond : Flags → Bool, cond p = taken ∧ exec i = branchIf cond offset := by
  simp only [branchForms, List.mem_cons, Prod.mk.injEq, List.not_mem_nil, or_false] at h
  rcases h with ⟨rfl, rfl, rfl⟩ | ⟨rfl, rfl, rfl⟩ | ⟨rfl, rfl, rfl⟩ | ⟨rfl, rfl, rfl⟩ | ⟨rfl, rfl, rfl⟩ |
    ⟨rfl, rfl, rfl⟩ | ⟨rfl, rfl, rfl⟩ | ⟨rfl, rfl, rfl⟩ <;> exact ⟨rfl, rfl, _, rfl, rfl⟩

/-- Settles O35, by the branch sequence with the condition of each branch. -/
theorem branchResults : Obligations.BranchResults := by
  intro s offset op i taken hi target cs
  obtain ⟨hop, hlen, cond, hcond, hexec⟩ := branchForms_spec hi
  rw [hexec]
  refine ⟨hop, fun ht => ⟨branchIf_not_taken (hcond.trans ht), ?_⟩,
    fun ht hg => ⟨branchIf_granted (hcond.trans ht) hg, ?_⟩⟩
  · rw [totalCycles, hlen, List.length_nil]
  · have hcs : cs.length = if hiByte target = hiByte s.pc then 1 else 2 := length_takenCycles offset s
    rw [totalCycles, hlen, hcs]
    split <;> rfl

theorem execJmpInd_granted {s : State} {ptr : Addr}
    (h : s.grantsAll [s.readCycleAt ptr, s.readCycleAt (indirectHigh ptr)]) :
    execJmpInd ptr s = .next ((s.after [s.readCycleAt ptr, s.readCycleAt (indirectHigh ptr)]).setPc
      (joinBytes (s.byteAt (indirectHigh ptr)) (s.byteAt ptr))).complete := by
  simp only [State.grantsAll_cons] at h
  obtain ⟨hlo, hhi, -⟩ := h
  unfold execJmpInd
  rw [busRead_granted hlo, Flow.bind_ok, busRead_granted (by simpa using hhi), Flow.bind_ok, Flow.answer_ok,
    State.after_after]
  rfl

/-- Settles O36, by the granted pointer reads. -/
theorem jmpResults : Obligations.JmpResults := by
  intro s a
  exact ⟨⟨rfl, rfl, rfl⟩, rfl, rfl, fun h => execJmpInd_granted h⟩

/-- The plain memory after the two pushes of a call (R182). -/
def callMemory (s : State) : Memory :=
  (s.bus.mem.write (stackAddr s.sp).toNat (hiByte s.pc)).write (stackAddr (s.sp - 1#8)).toNat (loByte s.pc)

/-- The cycles of a call before its last fetch (R110). -/
def callCycles (s : State) : List BusCycle :=
  [s.dummyCycle (stackAddr s.sp), .write (stackAddr s.sp) (hiByte s.pc),
    .write (stackAddr (s.sp - 1#8)) (loByte s.pc)]

theorem sp_sub_one_sub_one (sp : Byte) : sp - 1#8 - 1#8 = sp - 2#8 := by bv_omega

/-- A call whose pushes are granted goes on with the read of its high target byte (R110). -/
theorem callPushes_granted {s : State} {k : Unit → State → Flow Unit} (h : s.grantsAll (callCycles s)) :
    ((dummyRead (stackAddr s.sp) s).bind fun _ s => (push (hiByte s.pc) s).bind fun _ s =>
      (push (loByte s.pc) s).bind k) =
      k () (((s.after (callCycles s)).setMem (callMemory s)).setSp (s.sp - 2#8)) := by
  simp only [callCycles, State.grantsAll_cons] at h
  obtain ⟨hdummy, hhigh, hlow, -⟩ := h
  rw [dummyRead_granted hdummy, Flow.bind_ok, push_granted (by simpa using hhigh), Flow.bind_ok,
    push_granted ((Bus.grants_of_regions rfl _).trans hlow), Flow.bind_ok]
  simp [callCycles, callMemory, sp_sub_one_sub_one]

theorem execJsr_granted {s : State} {a : Addr}
    (h : s.grantsAll (callCycles s ++ [.read s.pc ((callMemory s).read s.pc.toNat)])) :
    execJsr a s = .next ((((s.after (callCycles s ++ [.read s.pc ((callMemory s).read s.pc.toNat)])).setMem
      (callMemory s)).setSp (s.sp - 2#8)).setPc
        (joinBytes ((callMemory s).read s.pc.toNat) (loByte a))).complete := by
  obtain ⟨hpushes, hread⟩ := State.grantsAll_append.1 h
  unfold execJsr
  rw [callPushes_granted hpushes,
    busRead_granted (by exact (Bus.grants_of_regions rfl _).trans (State.grantsAll_cons.1 hread).1),
    Flow.bind_ok, Flow.answer_ok]
  simp only [State.after_setSp, State.after_setMem, State.after_after]
  rfl

/-- The pushes of a call leave every other byte alone. -/
theorem callMemory_read_other {s : State} {a : Addr} (hhigh : a ≠ stackAddr s.sp)
    (hlow : a ≠ stackAddr (s.sp - 1#8)) : (callMemory s).read a.toNat = s.byteAt a := by
  unfold callMemory
  rw [Memory.read_write_other _ _ fun h => hlow (BitVec.eq_of_toNat_eq h),
    Memory.read_write_other _ _ fun h => hhigh (BitVec.eq_of_toNat_eq h)]
  rfl

/-- Settles O37, by the granted pushes and the read of the target's high byte after them. -/
theorem jsrResult : Obligations.JsrResult := by
  intro s a
  refine ⟨rfl, rfl, fun h => execJsr_granted h, fun hbyte hhigh hlow => ?_⟩
  have hread : (callMemory s).read s.pc.toNat = hiByte a := (callMemory_read_other hhigh hlow).trans hbyte
  exact (congrArg (joinBytes · (loByte a)) hread).trans (joinBytes_hi_lo a)

/-- The address RTS pulls (R183). -/
def pulledAddr (s : State) : Addr :=
  joinBytes (s.byteAt (stackAddr (s.sp + 2#8))) (s.byteAt (stackAddr (s.sp + 1#8)))

/-- The cycles of a return up to its second pull (R110). -/
def returnCycles (s : State) : List BusCycle :=
  [s.dummyCycle s.pc, s.dummyCycle (stackAddr s.sp), s.readCycleAt (stackAddr (s.sp + 1#8)),
    s.readCycleAt (stackAddr (s.sp + 2#8))]

/-- A return whose pulls are granted goes on with the bytes pulled. -/
theorem returnPulls_granted {s : State} {k : Byte → Byte → State → Flow Unit} (h : s.grantsAll (returnCycles s)) :
    ((dummyRead s.pc s).bind fun _ s => (dummyRead (stackAddr s.sp) s).bind fun _ s =>
      (pull s).bind fun lo s => (pull s).bind fun hi s => k lo hi s) =
      k (s.byteAt (stackAddr (s.sp + 1#8))) (s.byteAt (stackAddr (s.sp + 2#8)))
        ((s.after (returnCycles s)).setSp (s.sp + 2#8)) := by
  obtain ⟨hfirst, hsecond⟩ := (State.grantsAll_append (cs := [_, _, _])).1 h
  rw [firstPull_granted hfirst,
    pull_granted (by simpa [sp_add_one_add_one] using (State.grantsAll_cons.1 hsecond).1), Flow.bind_ok]
  simp [returnCycles, sp_add_one_add_one]

theorem execRts_granted {s : State} (h : s.grantsAll (returnCycles s ++ [s.dummyCycle (pulledAddr s)])) :
    execRts s = .next (((s.after (returnCycles s ++ [s.dummyCycle (pulledAddr s)])).setSp (s.sp + 2#8)).setPc
      (pulledAddr s + 1#16)).complete := by
  obtain ⟨hpulls, hlast⟩ := State.grantsAll_append.1 h
  unfold execRts
  rw [returnPulls_granted hpulls,
    dummyRead_granted (by exact (Bus.grants_of_regions rfl _).trans (State.grantsAll_cons.1 hlast).1)]
  simp [pulledAddr]

/-- Settles O38, by the granted pulls. -/
theorem rtsResult : Obligations.RtsResult := by
  intro s
  exact ⟨rfl, rfl, fun h => execRts_granted h⟩

/-! ## A failing read of the target -/

theorem execJmpInd_denied_low {s : State} {ptr : Addr} (hd : s.bus.denies (s.readCycleAt ptr) = true) :
    execJmpInd ptr s = .next (s.failedRead [] ptr) := by
  rw [execJmpInd, busRead_denied hd, Flow.bind_stopped, Flow.answer_stopped]

theorem execJmpInd_denied_high {s : State} {ptr : Addr} (hg : s.grantsAll [s.readCycleAt ptr])
    (hd : s.bus.denies (s.readCycleAt (indirectHigh ptr)) = true) :
    execJmpInd ptr s = .next (s.failedRead [s.readCycleAt ptr] (indirectHigh ptr)) := by
  rw [execJmpInd, busRead_granted (State.grantsAll_cons.1 hg).1, Flow.bind_ok, busRead_denied (by simpa using hd),
    Flow.bind_stopped, Flow.answer_stopped, State.failedRead_after]
  rfl

/-- The call whose last fetch fails: both pushed bytes and both steps of `SP` stay (R110, R235). -/
theorem execJsr_denied_last {s : State} (target : Addr) (hg : s.grantsAll (callCycles s))
    (hd : s.bus.denies (s.readCycleAt s.pc) = true) :
    execJsr target s =
      .next (((s.failedRead (callCycles s) s.pc).setMem (callMemory s)).setSp (s.sp - 2#8)) := by
  unfold execJsr
  rw [callPushes_granted hg, busRead_denied (by exact (Bus.denies_of_regions rfl _).trans hd), Flow.bind_stopped,
    Flow.answer_stopped]
  simp

/-- Settles O58, by the failing read of each byte of a target. -/
theorem jumpTargetBusFault : Obligations.JumpTargetBusFault := by
  intro s a
  exact ⟨execJmpInd_denied_low, execJmpInd_denied_high, execJsr_denied_last a⟩

/-! ## Failing dummy reads -/

/-- A sequence that begins with a dummy read ends there when it fails, before any effect (R99, R112). -/
theorem dummyRead_first_denied {s : State} {a : Addr} {k : Unit → State → Flow Unit}
    (hp : s.params.internalAccess = .nmosDummyRead) (hd : s.bus.denies (s.readCycleAt a) = true) :
    ((dummyRead a s).bind k).answer = .next (s.failedRead [] a) := by
  rw [dummyRead_denied hp hd, Flow.bind_stopped, Flow.answer_stopped]

theorem dummyCycle_of_dummyRead {s : State} (hp : s.params.internalAccess = .nmosDummyRead) (a : Addr) :
    s.dummyCycle a = s.readCycleAt a := by
  simp only [State.dummyCycle, hp, State.readCycleAt]

/-- The stack read of a pull or a return fails, after a granted read at `PC` (R109, R110). -/
theorem stackRead_denied {s : State} {k : Unit → State → Flow Unit} (hp : s.params.internalAccess = .nmosDummyRead)
    (hg : s.grantsAll [s.readCycleAt s.pc]) (hd : s.bus.denies (s.readCycleAt (stackAddr s.sp)) = true) :
    ((dummyRead s.pc s).bind fun _ s => (dummyRead (stackAddr s.sp) s).bind k).answer =
      .next (s.failedRead [s.readCycleAt s.pc] (stackAddr s.sp)) := by
  have hpc := dummyCycle_of_dummyRead hp s.pc
  rw [dummyRead_granted (by rw [hpc]; exact (State.grantsAll_cons.1 hg).1), Flow.bind_ok, hpc,
    dummyRead_first_denied (by exact hp) (by simpa using hd)]
  simp

/-- The classes that begin with a dummy read at `PC` (R100, R109, R110). -/
theorem meaning_denied_at_pc {m : Mode} {bs : List Byte} {o : Operation} {s : State}
    (hp : s.params.internalAccess = .nmosDummyRead)
    (hc : o.cls m ∈ [.accumulator, .implied, .push, .pull, .ret, .rti])
    (hd : s.bus.denies (s.readCycleAt s.pc) = true) : o.meaning m bs s = .next (s.failedRead [] s.pc) := by
  cases o with
  | implied | push | pull | ret | rti => exact dummyRead_first_denied hp hd
  | rmw op =>
    by_cases hm : m = .accumulator
    · rw [Operation.meaning, if_pos hm]
      exact dummyRead_first_denied hp hd
    · simp [Operation.cls, hm] at hc
  | jump => simp only [Operation.cls] at hc; split at hc <;> simp at hc
  | read | write | branch | call => simp [Operation.cls] at hc

/-- The classes that read the stack next (R109, R110). -/
theorem meaning_denied_at_stack {m : Mode} {bs : List Byte} {o : Operation} {s : State}
    (hp : s.params.internalAccess = .nmosDummyRead) (hc : o.cls m ∈ [.pull, .ret, .rti])
    (hg : s.grantsAll [s.readCycleAt s.pc]) (hd : s.bus.denies (s.readCycleAt (stackAddr s.sp)) = true) :
    o.meaning m bs s = .next (s.failedRead [s.readCycleAt s.pc] (stackAddr s.sp)) := by
  cases o with
  | pull | ret | rti => exact stackRead_denied hp hg hd
  | rmw | jump => simp only [Operation.cls] at hc; split at hc <;> simp at hc
  | read | write | implied | branch | push | call => simp [Operation.cls] at hc

/-- The last dummy read of RTS fails: both steps of `SP` and the pulled `PC` stay (R110). -/
theorem execRts_denied_last {s : State} (hp : s.params.internalAccess = .nmosDummyRead)
    (hg : s.grantsAll (returnCycles s)) (hd : s.bus.denies (s.readCycleAt (pulledAddr s)) = true) :
    execRts s =
      .next (((s.failedRead (returnCycles s) (pulledAddr s)).setSp (s.sp + 2#8)).setPc (pulledAddr s)) := by
  unfold execRts
  rw [returnPulls_granted hg, dummyRead_denied (by exact hp) (by exact (Bus.denies_of_regions rfl _).trans hd),
    Flow.bind_stopped, Flow.answer_stopped]
  simp [pulledAddr]

theorem branchIf_denied_at_pc {cond : Flags → Bool} {offset : Byte} {s : State}
    (hp : s.params.internalAccess = .nmosDummyRead) (hc : cond s.p = true)
    (hd : s.bus.denies (s.readCycleAt s.pc) = true) : branchIf cond offset s = .next (s.failedRead [] s.pc) := by
  rw [branchIf, if_pos hc]
  exact dummyRead_first_denied hp hd

/-- The second dummy read of a taken branch fails: `PC` is loaded by then (R108). -/
theorem branchIf_denied_at_wrong_page {cond : Flags → Bool} {offset : Byte} {s : State}
    (hp : s.params.internalAccess = .nmosDummyRead) (hc : cond s.p = true)
    (hpage : hiByte (branchTarget s.pc offset) ≠ hiByte s.pc) (hg : s.grantsAll [s.readCycleAt s.pc])
    (hd : s.bus.denies (s.readCycleAt (joinBytes (hiByte s.pc) (loByte (branchTarget s.pc offset)))) = true) :
    branchIf cond offset s = .next ((s.failedRead [s.readCycleAt s.pc]
      (joinBytes (hiByte s.pc) (loByte (branchTarget s.pc offset)))).setPc (branchTarget s.pc offset)) := by
  have hpc := dummyCycle_of_dummyRead hp s.pc
  rw [branchIf, if_pos hc, takeBranch,
    dummyRead_granted (by rw [hpc]; exact (State.grantsAll_cons.1 hg).1), Flow.bind_ok, hpc]
  simp only [branchCrosses, hpage, ne_eq, not_false_eq_true, decide_true, if_true]
  rw [dummyRead_denied (by exact hp) (by exact (Bus.denies_of_regions rfl _).trans hd), Flow.answer_stopped]
  simp

/-- Settles O59, by the first failing dummy read of each sequence. -/
theorem dummyReadBusFault : Obligations.DummyReadBusFault := by
  intro s hp r ret pulls
  have hpulls : pulls = returnCycles s := by simp only [returnCycles, dummyCycle_of_dummyRead hp, pulls, r]
  refine ⟨fun i row hr => ⟨fun hc hd => ?_, fun hc hg hd => ?_, fun hc hd => ?_⟩, fun hg hd => ?_,
    fun offset op i hi => ?_⟩
  · rw [exec_eq_meaning hr]
    exact meaning_denied_at_pc hp (cls_eq_of_dispatch hr ▸ hc) hd
  · rw [exec_eq_meaning hr]
    exact meaning_denied_at_stack hp (cls_eq_of_dispatch hr ▸ hc) hg hd
  · obtain ⟨a, rfl⟩ := eq_jsr_of_call hr hc
    exact dummyRead_first_denied hp hd
  · rw [hpulls] at hg ⊢
    exact execRts_denied_last hp hg hd
  · obtain ⟨-, -, cond, hcond, hexec⟩ := branchForms_spec hi
    rw [hexec]
    exact ⟨branchIf_denied_at_pc hp hcond, branchIf_denied_at_wrong_page hp hcond⟩

end Sys2Proof.Machine
end

section
/-! PROOFS. The executor at the opcode fetch and in `Done` (R80 to R83, R246), and the fetches that plain memory fails
(R81, R112, R234). -/

namespace Sys2Proof.Machine

open Sys2Proof

/-! ## A cycle by executor state -/

theorem cycle_fetchOpcode {s : State} (hr : s.rst = false) (he : s.e = .fetchOpcode) :
    cycle s = .next (fetchCycle s) := by
  simp [cycle, hr, he]

theorem cycle_done {s : State} {r : DoneReason} (hr : s.rst = false) (he : s.e = .done r) :
    cycle s = .fault r.fault := by
  simp [cycle, hr, he]

theorem step_fetchOpcode {s : State} (hr : s.rst = false) (he : s.e = .fetchOpcode) : step s = runInstr s := by
  simp [step, hr, he]

theorem step_done {s : State} {r : DoneReason} (hr : s.rst = false) (he : s.e = .done r) :
    step s = .fault r.fault := by
  simp [step, hr, he]

theorem fetchByte_of_failure {s : State} (h : s.bus.readAnswer s.pc = none) :
    fetchByte s = .stopped (s.failedRead [] s.pc) := by
  rw [fetchByte, busRead_of_failure h, Flow.bind_stopped]

/-- Settles O5, by the answer to the fetch and the table's entry at the byte. -/
theorem opcodeFetchCycle : Obligations.OpcodeFetchCycle := by
  intro s hr he
  rw [cycle_fetchOpcode hr he, fetchCycle]
  refine ⟨fun hfail => ?_, fun op hop => ?_⟩
  · rw [fetchByte_of_failure hfail]
    rfl
  · rw [fetchByte_of_answer hop]
    refine ⟨fun hknown => ?_, fun hnone => ?_⟩
    · obtain ⟨row, hrow⟩ := Option.isSome_iff_exists.1 hknown
      simp only [hrow]
      exact ⟨_, rfl, rfl, rfl⟩
    · simp only [hnone]
      rfl

/-- The fault a step from `Done` answers is `halted` for byte $00 alone (R246). -/
theorem fault_eq_halted_iff (r : DoneReason) : r.fault = .halted ↔ r = .unknownOpcode 0x00#8 := by
  cases r with
  | unknownOpcode op => by_cases h : op = 0x00#8 <;> simp [DoneReason.fault, h]
  | busFault kind addr => simp [DoneReason.fault]

/-- Settles O8, by the fault of the reason. -/
theorem doneHasNoStep : Obligations.DoneHasNoStep := by
  intro s r hr he
  refine ⟨r.fault, step_done hr he, cycle_done hr he, ?_, fun op hop hne => ?_, fun kind addr hb => ?_⟩
  · rw [fault_eq_halted_iff, State.endedNormally, he, Executor.done.injEq]
  · rw [hop, DoneReason.fault, if_neg hne]
  · rw [hb, DoneReason.fault]

/-! ## Failing fetches -/

/-- The first fetch of the bytes at `PC` fails: `PC` is as before. -/
theorem fetchByte_denied_first {b v : Byte} {bs : List Byte} {s : State} {rest : List BusCycle} {a : Addr}
    (hcs : fetchCyclesAt s.pc (b :: bs) = .read a v :: rest) (hd : s.bus.denies (.read a v) = true) :
    fetchByte s = .stopped ((s.failedRead [] a).setPc (s.pc + BitVec.ofNat 16 0)) := by
  obtain ⟨hread, -⟩ := List.cons.inj hcs
  cases hread
  rw [fetchByte_denied hd, BitVec.add_zero]
  rfl

/-- After a first granted fetch, the next one that fails is still denied. -/
theorem State.denies_fetched (s : State) (bs : List Byte) (c : BusCycle) :
    (s.fetched bs).bus.denies c = s.bus.denies c := Bus.denies_of_regions rfl c

/-- The state at a failing fetch, counted from the second byte and from the first. -/
theorem State.failedRead_fetched (s : State) (b : Byte) (before : List BusCycle) (a : Addr) :
    ((s.fetched [b]).failedRead before a).setPc ((s.fetched [b]).pc + BitVec.ofNat 16 before.length) =
      (s.failedRead (.read s.pc b :: before) a).setPc (s.pc + BitVec.ofNat 16 (before.length + 1)) := by
  have hpc : s.pc + 1#16 + BitVec.ofNat 16 before.length = s.pc + BitVec.ofNat 16 (before.length + 1) := by
    rw [BitVec.add_assoc, Nat.add_comm, BitVec.ofNat_add]
  simp [State.fetched, fetchCyclesAt, hpc]

/-- A fetch that fails, after the granted ones: `PC` is past the bytes fetched before. -/
theorem fetchBytes_denied {bs : List Byte} {s : State} {before rest : List BusCycle} {a : Addr} {v : Byte}
    (hs : s.holds s.pc bs) (hcs : fetchCyclesAt s.pc bs = before ++ .read a v :: rest) (hg : s.grantsAll before)
    (hd : s.bus.denies (.read a v) = true) :
    fetchBytes bs.length s =
      .stopped ((s.failedRead before a).setPc (s.pc + BitVec.ofNat 16 before.length)) := by
  induction bs generalizing s before with
  | nil => simp [fetchCyclesAt] at hcs
  | cons b bs ih =>
    rw [List.length_cons, fetchBytes]
    cases before with
    | nil =>
      rw [fetchByte_denied_first hcs hd]
      rfl
    | cons c before =>
      obtain ⟨rfl, hrest⟩ := List.cons.inj hcs
      obtain ⟨hfirst, hothers⟩ := State.grantsAll_cons.1 hg
      rw [fetchByte_granted hs.1 hfirst, Flow.bind_ok, ih (State.holds_fetched hs) hrest
        (fun c hc => (State.grants_fetched s [b] c).trans (hothers c hc)) ((State.denies_fetched s _ _).trans hd),
        Flow.bind_stopped, State.failedRead_fetched]
      rfl

/-- What plain memory holds it holds up to any byte. -/
theorem State.holds_of_append {s : State} {a : Addr} {bs cs : List Byte} (h : s.holds a (bs ++ cs)) :
    s.holds a bs := by
  induction bs generalizing a with
  | nil => trivial
  | cons b bs ih => exact ⟨h.1, ih h.2⟩

/-- The bytes fetched first are the opcode and as many operand bytes as the row fetches first, and the encoding begins
with them (R110). -/
theorem fetchedBytes_eq_cons {i : Instr} {row : Row} (h : i.row = some row) :
    ∃ operands later, Instr.fetchedBytes i = i.opcode :: operands ∧ operands.length = Row.leadingFetches row ∧
      encode i = i.opcode :: operands ++ later := by
  obtain ⟨hop, hlen, -⟩ := encodedBy_row h
  by_cases hc : row.cls = .call
  · obtain ⟨a, rfl⟩ := eq_jsr_of_call h hc
    cases (Instr.row_jsr a).symm.trans h
    exact ⟨[loByte a], [hiByte a], rfl, rfl, rfl⟩
  · refine ⟨(encode i).tail, [], (fetchedBytes_of_ne_call h hc).trans hop,
      hlen.trans (leadingFetches_of_ne_call hc).symm, ?_⟩
    rw [List.append_nil]
    exact hop

/-- The opcode is fetched first, byte $00 included. -/
theorem fetchedBytes_head (i : Instr) : ∃ operands, Instr.fetchedBytes i = i.opcode :: operands := by
  cases hr : i.row with
  | none =>
    cases eq_halt_of_row_none hr
    exact ⟨[], rfl⟩
  | some row =>
    obtain ⟨operands, -, hfetched, -, -⟩ := fetchedBytes_eq_cons hr
    exact ⟨operands, hfetched⟩

/-- The operand fetches of an instruction end at the first one that fails, after the granted opcode fetch. -/
theorem fetchInstr_denied_operand {i : Instr} {s : State} {c : BusCycle} {before rest : List BusCycle} {a : Addr}
    {v : Byte} (hs : s.holds s.pc (encode i))
    (hcs : fetchCyclesAt s.pc (Instr.fetchedBytes i) = c :: before ++ .read a v :: rest)
    (hg : s.grantsAll (c :: before)) (hd : s.bus.denies (.read a v) = true) :
    fetchInstr s =
      .stopped ((s.failedRead (c :: before) a).setPc (s.pc + BitVec.ofNat 16 (before.length + 1))) := by
  cases hr : i.row with
  | none =>
    cases eq_halt_of_row_none hr
    simp [Instr.fetchedBytes, encode, fetchCyclesAt] at hcs
  | some row =>
    obtain ⟨operands, later, hfetched, hlen, hencode⟩ := fetchedBytes_eq_cons hr
    rw [hfetched] at hcs
    rw [hencode] at hs
    have hleading := State.holds_of_append hs
    obtain ⟨rfl, hrest⟩ := List.cons.inj hcs
    obtain ⟨hfirst, hothers⟩ := State.grantsAll_cons.1 hg
    have hoperands := fetchBytes_denied (State.holds_fetched hleading) hrest
      (fun c hc => (State.grants_fetched s _ c).trans (hothers c hc)) ((State.denies_fetched s _ _).trans hd)
    unfold fetchInstr
    rw [fetchByte_granted hleading.1 hfirst, Flow.bind_ok]
    simp only [show dispatch i.opcode = some row from hr]
    rw [← hlen, hoperands, Flow.bind_stopped, State.failedRead_fetched]

/-- The fetches of an instruction end at the first one that fails (R81, R112, R234). -/
theorem fetchInstr_denied {i : Instr} {s : State} {before rest : List BusCycle} {a : Addr} {v : Byte}
    (hs : s.holds s.pc (encode i)) (hcs : fetchCyclesAt s.pc (Instr.fetchedBytes i) = before ++ .read a v :: rest)
    (hg : s.grantsAll before) (hd : s.bus.denies (.read a v) = true) :
    fetchInstr s = .stopped ((s.failedRead before a).setPc (s.pc + BitVec.ofNat 16 before.length)) := by
  cases before with
  | nil =>
    obtain ⟨operands, hfetched⟩ := fetchedBytes_head i
    rw [hfetched] at hcs
    unfold fetchInstr
    rw [fetchByte_denied_first hcs hd]
    rfl
  | cons c before => exact fetchInstr_denied_operand hs hcs hg hd

/-- Settles O60, by the first failing fetch. -/
theorem fetchBusFault : Obligations.FetchBusFault := by
  intro i s before rest a v hr he hs hcs hg hd
  rw [step_fetchOpcode hr he, runInstr, fetchInstr_denied hs hcs hg hd]
  rfl

end Sys2Proof.Machine
end

section
/-! PROOFS. What an instruction stores, on any bus (R98, R102 to R107), and the first failing access of a memory operand
(R112, R232, R233). -/

namespace Sys2Proof.Machine

open Sys2Proof

/-! ## Stored bytes -/

theorem impliedOp_keeps_memory {op : State → State} {s t : State} (hop : ∀ s, (op s).bus = s.bus)
    (h : impliedOp op s = .next t) (a : Addr) : t.byteAt a = s.byteAt a := by
  rcases impliedOp_outcome h with ⟨s', hs, rfl⟩ | hd
  · rw [State.byteAt_complete, State.byteAt, hop]
    exact hs.byteAt a
  · exact hd.byteAt a

theorem readMem_keeps_memory {o : MemOperand} {op : Byte → State → State} {s t : State}
    (hop : ∀ v s, (op v s).bus = s.bus) (h : readMem o op s = .next t) (a : Addr) : t.byteAt a = s.byteAt a := by
  rcases readMem_outcome h with ⟨v, s', hs, rfl⟩ | hd
  · rw [State.byteAt_complete, State.byteAt, hop]
    exact hs.byteAt a
  · exact hd.byteAt a

theorem pullOp_keeps_memory {op : Byte → State → State} {s t : State} (hop : ∀ v s, (op v s).bus = s.bus)
    (h : pullOp op s = .next t) (a : Addr) : t.byteAt a = s.byteAt a := by
  rcases pullOp_outcome h with ⟨v, u, hu, rfl⟩ | hd
  · rw [State.byteAt_complete, State.byteAt, hop]
    exact hu.byteAt a
  · exact hd.byteAt a

theorem branchIf_keeps_memory {cond : Flags → Bool} {offset : Byte} {s t : State}
    (h : branchIf cond offset s = .next t) (a : Addr) : t.byteAt a = s.byteAt a := by
  rcases branchIf_outcome h with ⟨s', pc, hs, rfl⟩ | hd | ⟨s', pc, hd, rfl⟩
  · exact hs.byteAt a
  · exact hd.byteAt a
  · exact hd.byteAt a

theorem execJmpInd_keeps_memory {ptr : Addr} {s t : State} (h : execJmpInd ptr s = .next t) (a : Addr) :
    t.byteAt a = s.byteAt a := by
  rcases execJmpInd_outcome h with ⟨s', pc, hs, rfl⟩ | hd
  · exact hs.byteAt a
  · exact hd.byteAt a

/-- A row that stores nothing leaves every byte alone. -/
theorem meaning_keeps_memory {row : Row} {bs : List Byte} {s t : State}
    (hc : (Mnemonic.operation row.mnemonic).cls row.mode ∉ [.write, .rmw, .push, .call])
    (h : Row.meaning row bs s = .next t) (a : Addr) : t.byteAt a = s.byteAt a := by
  unfold Row.meaning at h
  cases ho : Mnemonic.operation row.mnemonic with
  | read op =>
    have hop (v : Byte) (s : State) : (op v s).bus = s.bus := (readOperation_operated ho v s).bus
    rw [ho, Operation.meaning] at h
    split at h
    · rcases onByte_outcome h with ⟨v, hv⟩ | rfl
      · cases hv
        rw [State.byteAt_complete, State.byteAt, hop]
        rfl
      · rfl
    · rcases onOperand_outcome h with ⟨o, hm⟩ | rfl
      · exact readMem_keeps_memory hop hm a
      · rfl
  | rmw op =>
    rw [ho] at h hc
    by_cases hm : row.mode = .accumulator
    · rw [Operation.meaning, if_pos hm] at h
      exact impliedOp_keeps_memory (op := onAccumulator op) (fun _ => rfl) h a
    · simp [Operation.cls, hm] at hc
  | implied op =>
    rw [ho] at h
    exact impliedOp_keeps_memory (fun s => (impliedOperation_operated ho s).bus) h a
  | branch cond =>
    rw [ho] at h
    rcases onByte_outcome h with ⟨v, hv⟩ | rfl
    · exact branchIf_keeps_memory hv a
    · rfl
  | pull op =>
    rw [ho] at h
    exact pullOp_keeps_memory (fun v s => (pullOperation_operated ho v s).bus) h a
  | jump =>
    rw [ho] at h
    rcases onTarget_outcome h with ⟨target, ht⟩ | rfl
    · split at ht
      · cases ht
        rfl
      · exact execJmpInd_keeps_memory ht a
    · rfl
  | ret =>
    rw [ho] at h
    exact (execRts_outcome h).1.others a id
  | rti =>
    rw [ho] at h
    exact (execRti_outcome h).1.others a id
  | write | push | call => simp [ho, Operation.cls] at hc

/-- Settles O47, by the sequence of a row whose class stores nothing. -/
theorem nonStoringKeepsMemory : Obligations.NonStoringKeepsMemory := by
  intro i s t hc h a
  cases hr : i.row with
  | none =>
    cases eq_halt_of_row_none hr
    cases h
    rfl
  | some row =>
    rw [exec_eq_meaning hr] at h
    exact meaning_keeps_memory (cls_eq_of_dispatch hr ▸ hc row hr) h a

/-! ## A memory operand's instruction -/

/-- A memory operand is one of a mode with operand bytes, so of no immediate byte and no accumulator. -/
theorem mode_ne_of_memOperand {m : Mode} {bs : List Byte} {o : MemOperand} (h : Mode.memOperand m bs = some o) :
    m ≠ .immediate ∧ m ≠ .accumulator := by
  constructor <;> rintro rfl <;> simp [Mode.memOperand] at h

/-- What a read, a store or a read-modify-write with a memory operand means (R98). -/
inductive OperandMeaning (row : Row) (o : MemOperand) : (State → Answer) → Prop
  | read {op} (ho : Mnemonic.operation row.mnemonic = .read op) (hc : row.cls = .read) :
      OperandMeaning row o (readMem o op)
  | write {value} (ho : Mnemonic.operation row.mnemonic = .write value) (hc : row.cls = .write) :
      OperandMeaning row o (writeMem o value)
  | rmw {op} (ho : Mnemonic.operation row.mnemonic = .rmw op) (hc : row.cls = .rmw) :
      OperandMeaning row o (modifyMem o op)

theorem exec_operandMeaning {i : Instr} {row : Row} {o : MemOperand} (hr : i.row = some row)
    (hc : row.cls = .read ∨ row.cls = .write ∨ row.cls = .rmw)
    (hm : Mode.memOperand row.mode (encode i).tail = some o) : OperandMeaning row o (exec i) := by
  obtain ⟨himm, hacc⟩ := mode_ne_of_memOperand hm
  have hcls := cls_eq_of_dispatch hr
  rw [exec_eq_meaning hr, Row.meaning]
  cases ho : Mnemonic.operation row.mnemonic with
  | read op =>
    rw [ho] at hcls
    rw [Operation.meaning, if_neg himm, onOperand_of_some hm]
    exact .read ho hcls
  | write value =>
    rw [ho] at hcls
    rw [Operation.meaning, onOperand_of_some hm]
    exact .write ho hcls
  | rmw op =>
    rw [ho, Operation.cls, if_neg hacc] at hcls
    rw [Operation.meaning, if_neg hacc, onOperand_of_some hm]
    exact .rmw ho hcls
  | jump => simp only [ho, Operation.cls] at hcls; split at hcls <;> simp [hcls] at hc
  | implied | branch | push | pull | call | ret | rti => simp [ho, Operation.cls] at hcls; simp [hcls] at hc

/-- Settles O48, by the outcomes of the store and of the read-modify-write. -/
theorem storingKeepsOtherBytes : Obligations.StoringKeepsOtherBytes := by
  intro i row o s t hr hc hm h
  have hmeaning := exec_operandMeaning hr (.inr hc) hm
  have key : (∃ ea s', o.resolve true s = .ok ea s' ∧ ∀ a : Addr, a ≠ ea → t.byteAt a = s.byteAt a) ∨
      ∀ a : Addr, t.byteAt a = s.byteAt a := by
    generalize exec i = meaning at hmeaning h
    cases hmeaning with
    | read ho hread => simp [hread] at hc
    | write ho =>
      rcases writeMem_outcome h with ⟨ea, s', hok, u, hu, rfl⟩ | hd
      · exact .inl ⟨ea, s', hok, hu.others⟩
      · exact .inr hd.byteAt
    | rmw ho =>
      rcases modifyMem_outcome h with ⟨ea, s', hok, -, ⟨u, hu, rfl⟩ | ⟨hu, -⟩⟩ | hd
      · exact .inl ⟨ea, s', hok, hu.others⟩
      · exact .inl ⟨ea, s', hok, hu.others⟩
      · exact .inr hd.byteAt
  rcases key with ⟨ea, s', hok, hother⟩ | hall
  · refine ⟨fun ea' u hok' => ?_, fun u hstop => ?_⟩
    · cases hok.symm.trans hok'
      exact hother
    · cases hok.symm.trans hstop
  · exact ⟨fun _ _ _ a _ => hall a, fun _ _ => hall⟩

/-! ## The first failing access -/

/-- The state when the access of a cycle fails after others (R112, R232, R233). -/
def State.failedAt (s : State) (before : List BusCycle) (c : BusCycle) (r : DoneReason) : State :=
  { s.after (before ++ [BusCycle.failed c]) with e := .done r }

/-- A part of a sequence makes the accesses of the cycles from `s`: the first one that plain memory fails ends it. -/
def Flow.FailsAlong {α : Type} (f : Flow α) (s : State) (cs : List BusCycle) : Prop :=
  ∀ before c rest r, cs = before ++ c :: rest → s.grantsAll before → s.bus.denies c = true →
    BusCycle.fault c = some r → f = .stopped (s.failedAt before c r)

theorem Flow.FailsAlong.nil {α : Type} (f : Flow α) (s : State) : f.FailsAlong s [] := by
  intro before c rest r h
  simp at h

/-- One access. -/
theorem Flow.FailsAlong.single {α : Type} {f : Flow α} {s : State} {c : BusCycle}
    (h : ∀ r, s.bus.denies c = true → BusCycle.fault c = some r → f = .stopped (s.failedAt [] c r)) :
    f.FailsAlong s [c] := by
  intro before c' rest r hcs _ hd hr
  cases before with
  | nil =>
    cases hcs
    exact h r hd hr
  | cons c'' before => simp at hcs

/-- What stops inside a part stops the sequence there. -/
theorem Flow.FailsAlong.bind {α β : Type} {f : Flow α} {s : State} {cs : List BusCycle} (h : f.FailsAlong s cs)
    (k : α → State → Flow β) : (f.bind k).FailsAlong s cs := by
  intro before c rest r hcs hg hd hr
  rw [h before c rest r hcs hg hd hr, Flow.bind_stopped]

/-- One part after another: the cycles of the second follow those of the first, granted. -/
theorem Flow.FailsAlong.append {α β : Type} {f : Flow α} {k : α → State → Flow β} {v : α} {s : State}
    {cs ds : List BusCycle} (hf : f.FailsAlong s cs) (hok : s.grantsAll cs → f = .ok v (s.after cs))
    (hk : (k v (s.after cs)).FailsAlong (s.after cs) ds) : (f.bind k).FailsAlong s (cs ++ ds) := by
  intro before c rest r hcs hg hd hr
  rcases List.append_eq_append_iff.1 hcs with ⟨before', rfl, hds⟩ | ⟨cs', rfl, hrest⟩
  · obtain ⟨hfirst, hsecond⟩ := State.grantsAll_append.1 hg
    rw [hok hfirst, Flow.bind_ok, hk before' c rest r hds (fun c hc => (State.grants_after s cs c).trans (hsecond c hc))
      ((State.denies_after s cs c).trans hd) hr]
    simp [State.failedAt]
  · cases cs' with
    | nil =>
      rw [List.append_nil] at hok hk
      rw [hok hg, Flow.bind_ok, hk [] c rest r hrest.symm (State.grantsAll_nil _)
        ((State.denies_after s before c).trans hd) hr]
      simp [State.failedAt]
    | cons c' cs' =>
      obtain ⟨rfl, -⟩ := List.cons.inj hrest
      rw [hf before c cs' r rfl hg hd hr, Flow.bind_stopped]

theorem busRead_failsAlong (a : Addr) (s : State) : (busRead a s).FailsAlong s [s.readCycleAt a] :=
  .single fun r hd hr => by
    cases hr
    exact busRead_denied hd

theorem busWrite_failsAlong (a : Addr) (v : Byte) (s : State) : (busWrite a v s).FailsAlong s [.write a v] :=
  .single fun r hd hr => by
    cases hr
    exact busWrite_denied hd

theorem dummyRead_failsAlong (a : Addr) (s : State) : (dummyRead a s).FailsAlong s [s.dummyCycle a] := by
  cases hp : s.params.internalAccess with
  | nmosDummyRead =>
    rw [dummyCycle_of_dummyRead hp, dummyRead]
    simp only [hp]
    exact (busRead_failsAlong a s).bind _
  | noAccess =>
    refine .single fun r hd _ => ?_
    simp [State.dummyCycle, hp, Bus.denies] at hd

theorem readPointer_failsAlong (z : Byte) (s : State) :
    (readPointer z s).FailsAlong s [s.readCycleAt (zext16 z), s.readCycleAt (pointerHigh z)] :=
  (busRead_failsAlong _ s).append (fun h => busRead_granted (State.grantsAll_cons.1 h).1)
    ((busRead_failsAlong _ (s.after _)).bind _)

theorem indexBase_failsAlong (always : Bool) (base : Addr) (idx : Byte) (s : State) :
    (indexBase always base idx s).FailsAlong s (fixupCycles always base idx s) := by
  unfold indexBase fixupCycles
  split
  · exact (busRead_failsAlong _ s).bind _
  · exact .nil _ s

/-- The address decoder makes the accesses of the mode's cycles (R102 to R107). -/
theorem MemOperand.resolve_failsAlong (always : Bool) (o : MemOperand) (s : State) :
    (o.resolve always s).FailsAlong s (o.addressCycles always s) := by
  cases o with
  | zp z | abs a => exact .nil _ s
  | zpX z | zpY z => exact (dummyRead_failsAlong _ s).bind _
  | absX a | absY a => exact indexBase_failsAlong always a _ s
  | indX z =>
    exact (dummyRead_failsAlong _ s).append (fun h => dummyRead_granted (State.grantsAll_cons.1 h).1)
      (readPointer_failsAlong _ (s.after _))
  | indY z =>
    exact (readPointer_failsAlong z s).append readPointer_granted (indexBase_failsAlong always _ _ (s.after _))

/-- The accesses of an operand's instruction: those of the decoder, then those at the effective address. -/
theorem resolve_bind_failsAlong {always : Bool} {o : MemOperand} {s : State} {cs : List BusCycle}
    {k : Addr → State → Flow Unit}
    (h : (k (o.effectiveAddress s) (s.after (o.addressCycles always s))).FailsAlong
      (s.after (o.addressCycles always s)) cs) :
    ((o.resolve always s).bind k).FailsAlong s (o.addressCycles always s ++ cs) :=
  (MemOperand.resolve_failsAlong always o s).append MemOperand.resolve_granted h

theorem modifyAt_failsAlong (ea : Addr) (op : Byte → Flags → Byte × Flags) (s : State) :
    (modifyAt ea op s).FailsAlong s [s.readCycleAt ea, .write ea (s.byteAt ea)] :=
  (busRead_failsAlong ea s).append (fun h => busRead_granted (State.grantsAll_cons.1 h).1)
    ((busWrite_failsAlong ea _ (s.after _)).bind _)

/-- An instruction that answers a sequence ends where the sequence does. -/
def EndsAlong (meaning : State → Answer) (s : State) (cs : List BusCycle) : Prop :=
  ∃ f : Flow Unit, meaning s = f.answer ∧ f.FailsAlong s cs

/-- Every instruction with a memory operand makes the accesses of `firstCycles`. -/
theorem OperandMeaning.endsAlong {row : Row} {o : MemOperand} {meaning : State → Answer}
    (h : OperandMeaning row o meaning) (s : State) : EndsAlong meaning s (firstCycles row o s) := by
  obtain ⟨m, mode, cls, cycles, format⟩ := row
  cases h with
  | read ho hc =>
    cases hc
    exact ⟨_, rfl, resolve_bind_failsAlong ((busRead_failsAlong _ (s.after _)).bind _)⟩
  | write ho hc =>
    cases hc
    cases m <;> cases ho <;> exact ⟨_, rfl, resolve_bind_failsAlong (busWrite_failsAlong _ _ (s.after _))⟩
  | rmw ho hc =>
    cases hc
    exact ⟨_, rfl, resolve_bind_failsAlong (modifyAt_failsAlong _ _ (s.after _))⟩

/-- Settles O42: the sequence stops at the failing access, where nothing but the executor, the counter and the history
has changed. -/
theorem operandBusFault : Obligations.OperandBusFault := by
  intro i row o s before rest c r hr hc hm hcs hg hd hf
  obtain ⟨f, hmeaning, hfails⟩ := (exec_operandMeaning hr hc hm).endsAlong s
  refine ⟨s.failedAt before c r, ?_, rfl, ?_, ?_, rfl, rfl, rfl, rfl, rfl, rfl, fun _ => rfl⟩
  · rw [hmeaning, hfails before c rest r hcs hg hd hf, Flow.answer_stopped]
  · simp [State.failedAt, Nat.add_assoc]
  · simp [State.failedAt]

end Sys2Proof.Machine
end

section
/-! PROOFS. Every cycle is performed, counted once and seen once (R82, R83): each of a handler's cycles makes exactly one
bus access or elapses once with none. -/

namespace Sys2Proof.Machine

open Sys2Proof

/-- Between `s` and `t` one cycle elapsed: it is counted, and the bus has seen it. -/
def Ticked (s t : State) : Prop := t.cycles = s.cycles + 1 ∧ ∃ c, t.bus.log = c :: s.bus.log

theorem Ticked.tick (s : State) (c : BusCycle) : Ticked s (s.tick c) := ⟨rfl, c, rfl⟩

theorem Operated.ticked {row : Row} {s t u : State} (h : Operated row t u) (ht : Ticked s t) : Ticked s u := by
  unfold Ticked
  rw [h.cycles, h.bus]
  exact ht

/-- A part of a sequence is one cycle, whether its access fails or not. -/
def Flow.Ticks {α : Type} (f : Flow α) (s : State) : Prop := f.Meets (fun _ t => Ticked s t) (Ticked s)

theorem Flow.Ticks.bind {α β : Type} {f : Flow α} {k : α → State → Flow β} {s : State} (hf : f.Ticks s)
    (hk : ∀ v t, Ticked s t → (k v t).Ticks s) : (f.bind k).Ticks s := Flow.Meets.bind hf hk

theorem busRead_ticks (a : Addr) (s : State) : (busRead a s).Ticks s :=
  (busRead_meets a s).weaken (fun _ _ h => h.2 ▸ Ticked.tick s _) fun _ h => h.2 ▸ Ticked.tick s (.readFailed a)

theorem busWrite_ticks (a : Addr) (v : Byte) (s : State) : (busWrite a v s).Ticks s :=
  (busWrite_meets a v s).weaken (fun _ _ ⟨_, _, h⟩ => h ▸ Ticked.tick s (.write a v))
    fun _ h => h.2 ▸ Ticked.tick s (.writeFailed a v)

theorem dummyRead_ticks (a : Addr) (s : State) : (dummyRead a s).Ticks s :=
  (dummyRead_meets a s).weaken (fun _ _ ⟨c, h⟩ => h ▸ Ticked.tick s c) fun _ h => h ▸ Ticked.tick s (.readFailed a)

theorem fetchByte_ticks (s : State) : (fetchByte s).Ticks s := (busRead_ticks s.pc s).bind fun _ _ h => h

theorem push_ticks (v : Byte) (s : State) : (push v s).Ticks s := (busWrite_ticks _ v s).bind fun _ _ h => h

theorem pull_ticks (s : State) : (pull s).Ticks s := (busRead_ticks _ s).bind fun _ _ h => h

/-! ## One cycle of a handler -/

/-- A handler's cycle is one (R82): there is such a cycle, and however it ends, one cycle elapsed. -/
def CycleEnd.Ticks (c : CycleEnd) (s : State) : Prop :=
  match c with
  | .more _ t => Ticked s t
  | .complete t => Ticked s t
  | .stopped t => Ticked s t
  | .none => False

theorem Flow.Ticks.cycleEnd {α : Type} {f : Flow α} {k : α → State → CycleEnd} {s : State} (hf : f.Ticks s)
    (hk : ∀ v t, Ticked s t → (k v t).Ticks s) : (f.cycleEnd k).Ticks s := by
  cases f with
  | ok v t => exact hk v t hf
  | stopped t => exact hf

/-- A cycle of a mode's sequence before the operand access is one; the `k`-th at the effective address comes `k` cycles
after the first. -/
def OperandCycle.Ticks (c : OperandCycle) (m : Mode) (h : Handler) (s : State) : Prop :=
  match c with
  | .before c => c.Ticks s
  | .operand k _ => k = 0 ∨ Mode.addressEnd m + 1 + k = h.t

theorem unfixedCycle_ticks (always : Bool) (m : Mode) (h : Handler) (s : State) :
    (unfixedCycle always h s).Ticks m h s := by
  unfold unfixedCycle
  split
  · exact (busRead_ticks _ s).cycleEnd fun _ _ ht => ht
  · exact .inl rfl

/-- A cycle that only updates the handler's bytes. -/
theorem Flow.Ticks.goesOn {α : Type} {f : Flow α} {g : α → State → Handler} {s : State} (hf : f.Ticks s) :
    (f.cycleEnd fun v t => .more (g v t) t).Ticks s := hf.cycleEnd fun _ _ ht => ht

/-- The cycles of the addressing modes, by the access each makes: a memory mode has one of every number from 2 on. -/
theorem operandCycle_ticks (always : Bool) {m : Mode} {h : Handler} (s : State) (hm : Mode.isMemory m = true)
    (h2 : 2 ≤ h.t) : (operandCycle always m h s).Ticks m h s := by
  obtain ⟨op, t, lo, hi, ptr, data, carry⟩ := h
  obtain ⟨n, rfl⟩ : ∃ n, t = n + 2 := ⟨t - 2, (Nat.sub_add_cancel h2).symm⟩
  simp only [Mode.isMemory, List.mem_cons, List.not_mem_nil, or_false, decide_eq_true_eq] at hm
  rcases hm with rfl | rfl | rfl | rfl | rfl | rfl | rfl | rfl
  · match n with
    | 0 => exact (fetchByte_ticks s).goesOn
    | n + 1 => exact .inr (by simp only [Mode.addressEnd]; omega)
  · match n with
    | 0 => exact (fetchByte_ticks s).goesOn
    | 1 => exact (dummyRead_ticks _ s).goesOn
    | n + 2 => exact .inr (by simp only [Mode.addressEnd]; omega)
  · match n with
    | 0 => exact (fetchByte_ticks s).goesOn
    | 1 => exact (dummyRead_ticks _ s).goesOn
    | n + 2 => exact .inr (by simp only [Mode.addressEnd]; omega)
  · match n with
    | 0 => exact (fetchByte_ticks s).goesOn
    | 1 => exact (fetchByte_ticks s).goesOn
    | n + 2 => exact .inr (by simp only [Mode.addressEnd]; omega)
  · match n with
    | 0 => exact (fetchByte_ticks s).goesOn
    | 1 => exact (fetchByte_ticks s).goesOn
    | 2 => exact unfixedCycle_ticks always _ _ s
    | n + 3 => exact .inr (by simp only [Mode.addressEnd]; omega)
  · match n with
    | 0 => exact (fetchByte_ticks s).goesOn
    | 1 => exact (fetchByte_ticks s).goesOn
    | 2 => exact unfixedCycle_ticks always _ _ s
    | n + 3 => exact .inr (by simp only [Mode.addressEnd]; omega)
  · match n with
    | 0 => exact (fetchByte_ticks s).goesOn
    | 1 => exact (dummyRead_ticks _ s).goesOn
    | 2 => exact (busRead_ticks _ s).goesOn
    | 3 => exact (busRead_ticks _ s).goesOn
    | n + 4 => exact .inr (by simp only [Mode.addressEnd]; omega)
  · match n with
    | 0 => exact (fetchByte_ticks s).goesOn
    | 1 => exact (busRead_ticks _ s).goesOn
    | 2 => exact (busRead_ticks _ s).goesOn
    | 3 => exact unfixedCycle_ticks always _ _ s
    | n + 4 => exact .inr (by simp only [Mode.addressEnd]; omega)

theorem impliedCycle_ticks {op : State → State} {s : State} (hop : ∀ t, Ticked s t → Ticked s (op t)) {h : Handler}
    (ht : h.t = 2) : (impliedCycle op h s).Ticks s := by
  rw [impliedCycle, ht]
  exact (dummyRead_ticks _ s).cycleEnd fun _ => hop

/-! The cycles at the effective address, by class: the accesses that follow the address decoder's cycles. -/

/-- A cycle of an operand's sequence, from what its `k`-th cycle at the effective address does. -/
def OperandCycle.finish (c : OperandCycle) (access : Nat → Addr → CycleEnd) : CycleEnd :=
  match c with
  | .before c => c
  | .operand k ea => access k ea

/-- The operand access of a read (R102 to R107). -/
def readAccess (op : Byte → State → State) (s : State) : Nat → Addr → CycleEnd
  | 0, ea => (busRead ea s).cycleEnd fun v s => .complete (op v s)
  | _ + 1, _ => .none

/-- The operand access of a store (R102 to R107). -/
def writeAccess (value : State → Byte) (s : State) : Nat → Addr → CycleEnd
  | 0, ea => (busWrite ea (value s) s).cycleEnd fun _ s => .complete s
  | _ + 1, _ => .none

/-- The three accesses of a read-modify-write (R102 to R105). -/
def modifyAccess (op : Byte → Flags → Byte × Flags) (h : Handler) (s : State) : Nat → Addr → CycleEnd
  | 0, ea => (busRead ea s).cycleEnd fun v s => .more { h with data := v } s
  | 1, ea => (busWrite ea h.data s).cycleEnd fun _ s =>
      .more { h with data := (op h.data s.p).1 } (s.setP (op h.data s.p).2)
  | 2, ea => (busWrite ea h.data s).cycleEnd fun _ s => .complete s
  | _ + 3, _ => .none

theorem readCycle_eq {op : Byte → State → State} {m : Mode} (hm : m ≠ .immediate) (h : Handler) (s : State) :
    readCycle op m h s = (operandCycle false m h s).finish (readAccess op s) := by
  unfold readCycle
  split
  · exact absurd rfl hm
  · split
    · next hc => rw [hc]; rfl
    · next hc => rw [hc]; rfl
    · next k ea hk hc =>
      rw [hc]
      cases k with
      | zero => exact absurd rfl hk
      | succ k => rfl

theorem writeCycle_eq (value : State → Byte) (m : Mode) (h : Handler) (s : State) :
    writeCycle value m h s = (operandCycle true m h s).finish (writeAccess value s) := by
  unfold writeCycle
  split
  · next hc => rw [hc]; rfl
  · next hc => rw [hc]; rfl
  · next k ea hk hc =>
    rw [hc]
    cases k with
    | zero => exact absurd rfl hk
    | succ k => rfl

theorem modifyCycle_eq {op : Byte → Flags → Byte × Flags} {m : Mode} (hm : m ≠ .accumulator) (h : Handler)
    (s : State) : modifyCycle op m h s = (operandCycle true m h s).finish (modifyAccess op h s) := by
  unfold modifyCycle
  split
  · exact absurd rfl hm
  · split
    · next hc => rw [hc]; rfl
    · next hc => rw [hc]; rfl
    · next hc => rw [hc]; rfl
    · next hc => rw [hc]; rfl
    · next k ea h0 h1 h2 hc =>
      rw [hc]
      match k with
      | 0 => exact absurd rfl h0
      | 1 => exact absurd rfl h1
      | 2 => exact absurd rfl h2
      | k + 3 => rfl

theorem OperandCycle.Ticks.finish {c : OperandCycle} {m : Mode} {h : Handler} {s : State} (hc : c.Ticks m h s)
    {access : Nat → Addr → CycleEnd}
    (ha : ∀ k ea, k = 0 ∨ Mode.addressEnd m + 1 + k = h.t → (access k ea).Ticks s) : (c.finish access).Ticks s := by
  cases c with
  | before c => exact hc
  | operand k ea => exact ha k ea hc

theorem readCycle_ticks {op : Byte → State → State} {s : State} (hop : ∀ v t, Ticked s t → Ticked s (op v t))
    {m : Mode} {h : Handler} (hm : m = .immediate ∨ Mode.isMemory m = true) (h2 : 2 ≤ h.t)
    (hl : h.t ≤ Mode.addressEnd m + 1) : (readCycle op m h s).Ticks s := by
  by_cases himm : m = .immediate
  · subst himm
    have ht : h.t = 2 := Nat.le_antisymm hl h2
    simp only [readCycle, ht]
    exact (fetchByte_ticks s).cycleEnd hop
  · rw [readCycle_eq himm]
    refine (operandCycle_ticks false s (hm.resolve_left himm) h2).finish fun k ea hk => ?_
    obtain rfl : k = 0 := by omega
    exact (busRead_ticks ea s).cycleEnd hop

theorem writeCycle_ticks {value : State → Byte} {s : State} {m : Mode} {h : Handler} (hm : Mode.isMemory m = true)
    (h2 : 2 ≤ h.t) (hl : h.t ≤ Mode.addressEnd m + 1) : (writeCycle value m h s).Ticks s := by
  rw [writeCycle_eq]
  refine (operandCycle_ticks true s hm h2).finish fun k ea hk => ?_
  obtain rfl : k = 0 := by omega
  exact (busWrite_ticks ea _ s).cycleEnd fun _ _ ht => ht

theorem modifyCycle_ticks {op : Byte → Flags → Byte × Flags} {s : State} {m : Mode} {h : Handler}
    (hm : m = .accumulator ∨ Mode.isMemory m = true) (h2 : 2 ≤ h.t) (hl : h.t ≤ (Operation.rmw op).lastCycle m) :
    (modifyCycle op m h s).Ticks s := by
  by_cases hacc : m = .accumulator
  · subst hacc
    exact impliedCycle_ticks (op := onAccumulator op) (fun _ ht => ht) (Nat.le_antisymm hl h2)
  · rw [Operation.lastCycle, if_neg hacc] at hl
    rw [modifyCycle_eq hacc]
    refine (operandCycle_ticks true s (hm.resolve_left hacc) h2).finish fun k ea hk => ?_
    obtain rfl | rfl | rfl : k = 0 ∨ k = 1 ∨ k = 2 := by omega
    · exact (busRead_ticks ea s).goesOn
    · exact (busWrite_ticks ea _ s).cycleEnd fun _ _ ht => ht
    · exact (busWrite_ticks ea _ s).cycleEnd fun _ _ ht => ht

theorem branchCycle_ticks {cond : Flags → Bool} {s : State} {h : Handler} (h2 : 2 ≤ h.t) (hl : h.t ≤ 4) :
    (branchCycle cond h s).Ticks s := by
  obtain ht | ht | ht : h.t = 2 ∨ h.t = 3 ∨ h.t = 4 := by omega
  · simp only [branchCycle, ht]
    exact (fetchByte_ticks s).cycleEnd fun _ _ ht => by split <;> exact ht
  · simp only [branchCycle, ht]
    exact (dummyRead_ticks _ s).cycleEnd fun _ _ ht => by split <;> exact ht
  · simp only [branchCycle, ht]
    exact (dummyRead_ticks _ s).cycleEnd fun _ _ ht => ht

theorem pushCycle_ticks {value : State → Byte} {s : State} {h : Handler} (h2 : 2 ≤ h.t) (hl : h.t ≤ 3) :
    (pushCycle value h s).Ticks s := by
  obtain ht | ht : h.t = 2 ∨ h.t = 3 := by omega
  · simp only [pushCycle, ht]
    exact (dummyRead_ticks _ s).goesOn
  · simp only [pushCycle, ht]
    exact (push_ticks _ s).cycleEnd fun _ _ ht => ht

theorem pullCycle_ticks {op : Byte → State → State} {s : State} (hop : ∀ v t, Ticked s t → Ticked s (op v t))
    {h : Handler} (h2 : 2 ≤ h.t) (hl : h.t ≤ 4) : (pullCycle op h s).Ticks s := by
  obtain ht | ht | ht : h.t = 2 ∨ h.t = 3 ∨ h.t = 4 := by omega
  · simp only [pullCycle, ht]
    exact (dummyRead_ticks _ s).goesOn
  · simp only [pullCycle, ht]
    exact (dummyRead_ticks _ s).goesOn
  · simp only [pullCycle, ht]
    exact (pull_ticks s).cycleEnd hop

theorem jumpCycle_ticks {m : Mode} {s : State} {h : Handler} (hm : m = .absolute ∨ m = .absoluteIndirect)
    (h2 : 2 ≤ h.t) (hl : h.t ≤ Operation.jump.lastCycle m) : (jumpCycle m h s).Ticks s := by
  rcases hm with rfl | rfl
  · obtain ht | ht : h.t = 2 ∨ h.t = 3 := by
      change h.t ≤ 3 at hl
      omega
    · simp only [jumpCycle, ht]
      exact (fetchByte_ticks s).goesOn
    · simp only [jumpCycle, ht]
      exact (busRead_ticks _ s).cycleEnd fun _ _ ht => ht
  · obtain ht | ht | ht | ht : h.t = 2 ∨ h.t = 3 ∨ h.t = 4 ∨ h.t = 5 := by
      change h.t ≤ 5 at hl
      omega
    · simp only [jumpCycle, ht]
      exact (fetchByte_ticks s).goesOn
    · simp only [jumpCycle, ht]
      exact (fetchByte_ticks s).goesOn
    · simp only [jumpCycle, ht]
      exact (busRead_ticks _ s).goesOn
    · simp only [jumpCycle, ht]
      exact (busRead_ticks _ s).cycleEnd fun _ _ ht => ht

theorem callCycle_ticks {s : State} {h : Handler} (h2 : 2 ≤ h.t) (hl : h.t ≤ 6) : (callCycle h s).Ticks s := by
  obtain ht | ht | ht | ht | ht : h.t = 2 ∨ h.t = 3 ∨ h.t = 4 ∨ h.t = 5 ∨ h.t = 6 := by omega
  · simp only [callCycle, ht]
    exact (fetchByte_ticks s).goesOn
  · simp only [callCycle, ht]
    exact (dummyRead_ticks _ s).goesOn
  · simp only [callCycle, ht]
    exact (push_ticks _ s).goesOn
  · simp only [callCycle, ht]
    exact (push_ticks _ s).goesOn
  · simp only [callCycle, ht]
    exact (busRead_ticks _ s).cycleEnd fun _ _ ht => ht

theorem retCycle_ticks {s : State} {h : Handler} (h2 : 2 ≤ h.t) (hl : h.t ≤ 6) : (retCycle h s).Ticks s := by
  obtain ht | ht | ht | ht | ht : h.t = 2 ∨ h.t = 3 ∨ h.t = 4 ∨ h.t = 5 ∨ h.t = 6 := by omega
  · simp only [retCycle, ht]
    exact (dummyRead_ticks _ s).goesOn
  · simp only [retCycle, ht]
    exact (dummyRead_ticks _ s).goesOn
  · simp only [retCycle, ht]
    exact (pull_ticks s).goesOn
  · simp only [retCycle, ht]
    exact (pull_ticks s).cycleEnd fun _ _ ht => ht
  · simp only [retCycle, ht]
    exact (dummyRead_ticks _ s).cycleEnd fun _ _ ht => ht

theorem rtiCycle_ticks {s : State} {h : Handler} (h2 : 2 ≤ h.t) (hl : h.t ≤ 6) : (rtiCycle h s).Ticks s := by
  obtain ht | ht | ht | ht | ht : h.t = 2 ∨ h.t = 3 ∨ h.t = 4 ∨ h.t = 5 ∨ h.t = 6 := by omega
  · simp only [rtiCycle, ht]
    exact (dummyRead_ticks _ s).goesOn
  · simp only [rtiCycle, ht]
    exact (dummyRead_ticks _ s).goesOn
  · simp only [rtiCycle, ht]
    exact (pull_ticks s).cycleEnd fun _ _ ht => ht
  · simp only [rtiCycle, ht]
    exact (pull_ticks s).goesOn
  · simp only [rtiCycle, ht]
    exact (pull_ticks s).cycleEnd fun _ _ ht => ht

/-- The modes of a read-modify-write are the accumulator and memory modes (R98, R102 to R105). -/
theorem rmw_mode {op : Byte → Flags → Byte × Flags} {m : Mode} (h : (Operation.rmw op).hasMode m = true) :
    m = .accumulator ∨ Mode.isMemory m = true := by
  cases m <;> simp [Operation.hasMode, Mode.isMemory] at h ⊢

/-- Every cycle of a row's sequence is one. -/
theorem handlerCycle_ticks {row : Row} {h : Handler} (s : State)
    (hm : (Mnemonic.operation row.mnemonic).hasMode row.mode = true) (h2 : 2 ≤ h.t) (hl : h.t ≤ Row.lastCycle row) :
    (handlerCycle row h s).Ticks s := by
  unfold Row.lastCycle at hl
  unfold handlerCycle
  split
  case h_1 op ho =>
    rw [ho] at hm hl
    exact readCycle_ticks (fun v t => (readOperation_operated ho v t).ticked)
      (by simpa [Operation.hasMode] using hm) h2 hl
  case h_2 value ho =>
    rw [ho] at hm hl
    exact writeCycle_ticks hm h2 hl
  case h_3 op ho =>
    rw [ho] at hm hl
    exact modifyCycle_ticks (rmw_mode hm) h2 hl
  case h_4 op ho =>
    rw [ho] at hl
    exact impliedCycle_ticks (fun t => (impliedOperation_operated ho t).ticked) (Nat.le_antisymm hl h2)
  case h_5 cond ho => exact branchCycle_ticks h2 (by rw [ho] at hl; exact hl)
  case h_6 value ho => exact pushCycle_ticks h2 (by rw [ho] at hl; exact hl)
  case h_7 op ho =>
    rw [ho] at hl
    exact pullCycle_ticks (fun v t => (pullOperation_operated ho v t).ticked) h2 hl
  case h_8 ho =>
    rw [ho] at hm hl
    exact jumpCycle_ticks (by simpa [Operation.hasMode] using hm) h2 hl
  case h_9 ho => exact callCycle_ticks h2 (by rw [ho] at hl; exact hl)
  case h_10 ho => exact retCycle_ticks h2 (by rw [ho] at hl; exact hl)
  case h_11 ho => exact rtiCycle_ticks h2 (by rw [ho] at hl; exact hl)

/-! ## One cycle of the executor -/

theorem fetchCycle_ticked (s : State) : Ticked s (fetchCycle s) := by
  have hf := fetchByte_ticks s
  unfold fetchCycle
  cases hb : fetchByte s with
  | stopped t =>
    rw [hb] at hf
    exact hf
  | ok op t =>
    rw [hb] at hf
    cases hd : dispatch op with
    | none =>
      simp only [hd]
      exact hf
    | some row =>
      simp only [hd]
      exact hf

/-- A cycle from a handler of a run answers the state that the handler's cycle ends in. -/
theorem cycle_processing_ticked {s : State} {h : Handler} (hr : s.rst = false) (he : s.e = .processing h)
    (hl : h.legal) : ∃ t, cycle s = .next t ∧ Ticked s t := by
  obtain ⟨row, hd, -, -⟩ := id hl
  obtain ⟨h2, hlast⟩ := (Handler.legal_iff hd).1 hl
  have hc := handlerCycle_ticks s (hasMode_of_dispatch hd) h2 hlast
  simp only [cycle, hr, he, hd, Bool.false_eq_true, if_false]
  cases hend : handlerCycle row h s with
  | none =>
    rw [hend] at hc
    exact hc.elim
  | more h' t | complete t | stopped t =>
    rw [hend] at hc
    exact ⟨_, rfl, hc⟩

/-- Settles O17, by executor state: the opcode fetch is one cycle, and so is each of a legal handler's. -/
theorem everyCycleCounts : Obligations.EveryCycleCounts := by
  intro s hs hr hdone
  have key : ∃ t, cycle s = .next t ∧ Ticked s t := by
    cases he : s.e with
    | fetchOpcode => exact ⟨_, cycle_fetchOpcode hr he, fetchCycle_ticked s⟩
    | processing h => exact cycle_processing_ticked hr he (Handler.legal_of_processing he hs.executor)
    | done r => exact absurd he (hdone r)
  obtain ⟨t, ht, hcycles, c, hlog⟩ := key
  exact ⟨t, c, ht, hcycles, hlog⟩

end Sys2Proof.Machine
end

section
/-! PROOFS. The cycles make the step (R82 to R85, R100 to R112): a handler's cycles in a row are the operand fetches and
the sequence of its row. No cycle looks at the executor state, so the cycles are run on the handler alone. -/

namespace Sys2Proof.Machine

open Sys2Proof

/-! ## The executor state is not looked at -/

/-- A part of a sequence with another executor state, where it goes on. -/
def Flow.withE {α : Type} (e : Executor) : Flow α → Flow α
  | .ok v s => .ok v (s.setE e)
  | .stopped s => .stopped s

/-- A cycle's end with another executor state, where it is not that of a failed access. -/
def CycleEnd.withE (e : Executor) : CycleEnd → CycleEnd
  | .more h s => .more h (s.setE e)
  | .complete s => .complete (s.setE e)
  | .stopped s => .stopped s
  | .none => .none

/-- An operand cycle with another executor state. -/
def OperandCycle.withE (e : Executor) : OperandCycle → OperandCycle
  | .before c => .before (c.withE e)
  | .operand k ea => .operand k ea

theorem Flow.withE_bind {α β : Type} {f : Flow α} {e : Executor} {k : α → State → Flow β}
    (hk : ∀ v s, k v (s.setE e) = (k v s).withE e) : (f.withE e).bind k = (f.bind k).withE e := by
  cases f with
  | ok v s => exact hk v s
  | stopped s => rfl

theorem Flow.withE_cycleEnd {α : Type} {f g : Flow α} {e : Executor} {k k' : α → State → CycleEnd}
    (hf : g = f.withE e) (hk : ∀ v s, k' v (s.setE e) = (k v s).withE e) :
    g.cycleEnd k' = (f.cycleEnd k).withE e := by
  subst hf
  cases f with
  | ok v s => exact hk v s
  | stopped s => rfl

theorem busRead_setE (a : Addr) (s : State) (e : Executor) : busRead a (s.setE e) = (busRead a s).withE e := by
  unfold busRead
  rw [State.setE_bus]
  cases s.bus.readAnswer a <;> rfl

theorem busWrite_setE (a : Addr) (v : Byte) (s : State) (e : Executor) :
    busWrite a v (s.setE e) = (busWrite a v s).withE e := by
  unfold busWrite
  rw [State.setE_bus]
  cases s.bus.writeAnswer a v <;> rfl

theorem dummyRead_setE (a : Addr) (s : State) (e : Executor) : dummyRead a (s.setE e) = (dummyRead a s).withE e := by
  unfold dummyRead
  rw [State.setE_params]
  cases s.params.internalAccess with
  | nmosDummyRead => exact busRead_setE a s e ▸ Flow.withE_bind fun _ _ => rfl
  | noAccess => rfl

theorem fetchByte_setE (s : State) (e : Executor) : fetchByte (s.setE e) = (fetchByte s).withE e :=
  (congrArg (Flow.bind · _) (busRead_setE s.pc s e)).trans (Flow.withE_bind fun _ _ => rfl)

theorem push_setE (v : Byte) (s : State) (e : Executor) : push v (s.setE e) = (push v s).withE e :=
  (congrArg (Flow.bind · _) (busWrite_setE _ v s e)).trans (Flow.withE_bind fun _ _ => rfl)

theorem pull_setE (s : State) (e : Executor) : pull (s.setE e) = (pull s).withE e :=
  (congrArg (Flow.bind · _) (busRead_setE _ s e)).trans (Flow.withE_bind fun _ _ => rfl)

theorem readOperation_setE {m : Mnemonic} {op : Byte → State → State} (h : Mnemonic.operation m = .read op) (v : Byte)
    (s : State) (e : Executor) : op v (s.setE e) = (op v s).setE e := by
  cases m <;> cases h <;> rfl

theorem impliedOperation_setE {m : Mnemonic} {op : State → State} (h : Mnemonic.operation m = .implied op) (s : State)
    (e : Executor) : op (s.setE e) = (op s).setE e := by
  cases m <;> cases h <;> rfl

theorem pullOperation_setE {m : Mnemonic} {op : Byte → State → State} (h : Mnemonic.operation m = .pull op) (v : Byte)
    (s : State) (e : Executor) : op v (s.setE e) = (op v s).setE e := by
  cases m <;> cases h <;> rfl

theorem writeOperation_setE {m : Mnemonic} {value : State → Byte} (h : Mnemonic.operation m = .write value)
    (s : State) (e : Executor) : value (s.setE e) = value s := by
  cases m <;> cases h <;> rfl

theorem pushOperation_setE {m : Mnemonic} {value : State → Byte} (h : Mnemonic.operation m = .push value)
    (s : State) (e : Executor) : value (s.setE e) = value s := by
  cases m <;> cases h <;> rfl

theorem unfixedCycle_setE (always : Bool) (h : Handler) (s : State) (e : Executor) :
    unfixedCycle always h (s.setE e) = (unfixedCycle always h s).withE e := by
  unfold unfixedCycle
  split
  · exact congrArg OperandCycle.before (Flow.withE_cycleEnd (busRead_setE _ s e) fun _ _ => rfl)
  · rfl

theorem operandCycle_setE (always : Bool) (m : Mode) (h : Handler) (s : State) (e : Executor) :
    operandCycle always m h (s.setE e) = (operandCycle always m h s).withE e := by
  unfold operandCycle
  split
  -- An operand byte is fetched.
  case h_1 | h_3 | h_6 | h_9 | h_10 | h_12 | h_13 | h_16 | h_17 | h_20 | h_25 =>
    exact congrArg OperandCycle.before (Flow.withE_cycleEnd (fetchByte_setE s e) fun _ _ => rfl)
  -- An index is added in the zero page.
  case h_4 | h_7 | h_21 =>
    exact congrArg OperandCycle.before (Flow.withE_cycleEnd (dummyRead_setE _ s e) fun _ _ => rfl)
  -- A byte of a pointer is read.
  case h_22 | h_23 | h_26 | h_27 =>
    exact congrArg OperandCycle.before (Flow.withE_cycleEnd (busRead_setE _ s e) fun _ _ => rfl)
  -- The unfixed address is read.
  case h_14 | h_18 | h_28 => exact unfixedCycle_setE always h s e
  -- The operand is accessed, or there is no such cycle.
  all_goals rfl

theorem OperandCycle.finish_withE {c : OperandCycle} {e : Executor} {access access' : Nat → Addr → CycleEnd}
    (h : ∀ k ea, access' k ea = (access k ea).withE e) : (c.withE e).finish access' = (c.finish access).withE e := by
  cases c with
  | before c => rfl
  | operand k ea => exact h k ea

theorem impliedCycle_setE {op : State → State} (hop : ∀ s e, op (s.setE e) = (op s).setE e) (h : Handler) (s : State)
    (e : Executor) : impliedCycle op h (s.setE e) = (impliedCycle op h s).withE e := by
  unfold impliedCycle
  split
  · exact Flow.withE_cycleEnd (dummyRead_setE _ s e) fun _ t => congrArg CycleEnd.complete (hop t e)
  · rfl

theorem readCycle_setE {op : Byte → State → State} (hop : ∀ v s e, op v (s.setE e) = (op v s).setE e) (m : Mode)
    (h : Handler) (s : State) (e : Executor) : readCycle op m h (s.setE e) = (readCycle op m h s).withE e := by
  by_cases hm : m = .immediate
  · subst hm
    unfold readCycle
    split
    · exact Flow.withE_cycleEnd (fetchByte_setE s e) fun v t => congrArg CycleEnd.complete (hop v t e)
    · rfl
  · rw [readCycle_eq hm, readCycle_eq hm, operandCycle_setE]
    refine OperandCycle.finish_withE fun k ea => ?_
    cases k with
    | zero => exact Flow.withE_cycleEnd (busRead_setE ea s e) fun v t => congrArg CycleEnd.complete (hop v t e)
    | succ k => rfl

theorem writeCycle_setE {value : State → Byte} (hv : ∀ s e, value (s.setE e) = value s) (m : Mode) (h : Handler)
    (s : State) (e : Executor) : writeCycle value m h (s.setE e) = (writeCycle value m h s).withE e := by
  rw [writeCycle_eq, writeCycle_eq, operandCycle_setE]
  refine OperandCycle.finish_withE fun k ea => ?_
  cases k with
  | zero =>
    simp only [writeAccess, hv]
    exact Flow.withE_cycleEnd (busWrite_setE ea _ s e) fun _ _ => rfl
  | succ k => rfl

theorem modifyCycle_setE (op : Byte → Flags → Byte × Flags) (m : Mode) (h : Handler) (s : State) (e : Executor) :
    modifyCycle op m h (s.setE e) = (modifyCycle op m h s).withE e := by
  by_cases hm : m = .accumulator
  · subst hm
    exact impliedCycle_setE (op := onAccumulator op) (fun _ _ => rfl) h s e
  · rw [modifyCycle_eq hm, modifyCycle_eq hm, operandCycle_setE]
    refine OperandCycle.finish_withE fun k ea => ?_
    match k with
    | 0 => exact Flow.withE_cycleEnd (busRead_setE ea s e) fun _ _ => rfl
    | 1 => exact Flow.withE_cycleEnd (busWrite_setE ea _ s e) fun _ _ => rfl
    | 2 => exact Flow.withE_cycleEnd (busWrite_setE ea _ s e) fun _ _ => rfl
    | k + 3 => rfl

theorem branchCycle_setE (cond : Flags → Bool) (h : Handler) (s : State) (e : Executor) :
    branchCycle cond h (s.setE e) = (branchCycle cond h s).withE e := by
  unfold branchCycle
  split
  · refine Flow.withE_cycleEnd (fetchByte_setE s e) fun v t => ?_
    cases hc : cond t.p <;> simp [hc, CycleEnd.withE]
  · refine Flow.withE_cycleEnd (dummyRead_setE _ s e) fun v t => ?_
    rw [State.setE_pc]
    by_cases hcross : branchCrosses s.pc (branchTarget s.pc h.data) = true
    · rw [if_pos hcross, if_pos hcross]
      rfl
    · rw [if_neg hcross, if_neg hcross]
      rfl
  · exact Flow.withE_cycleEnd (dummyRead_setE _ s e) fun _ _ => rfl
  · rfl

theorem pushCycle_setE {value : State → Byte} (hv : ∀ s e, value (s.setE e) = value s) (h : Handler) (s : State)
    (e : Executor) : pushCycle value h (s.setE e) = (pushCycle value h s).withE e := by
  unfold pushCycle
  rw [hv]
  split
  · exact Flow.withE_cycleEnd (dummyRead_setE _ s e) fun _ _ => rfl
  · exact Flow.withE_cycleEnd (push_setE _ s e) fun _ _ => rfl
  · rfl

theorem pullCycle_setE {op : Byte → State → State} (hop : ∀ v s e, op v (s.setE e) = (op v s).setE e) (h : Handler)
    (s : State) (e : Executor) : pullCycle op h (s.setE e) = (pullCycle op h s).withE e := by
  unfold pullCycle
  split
  · exact Flow.withE_cycleEnd (dummyRead_setE _ s e) fun _ _ => rfl
  · exact Flow.withE_cycleEnd (dummyRead_setE _ s e) fun _ _ => rfl
  · exact Flow.withE_cycleEnd (pull_setE s e) fun v t => congrArg CycleEnd.complete (hop v t e)
  · rfl

theorem jumpCycle_setE (m : Mode) (h : Handler) (s : State) (e : Executor) :
    jumpCycle m h (s.setE e) = (jumpCycle m h s).withE e := by
  unfold jumpCycle
  split
  case h_1 | h_3 | h_4 => exact Flow.withE_cycleEnd (fetchByte_setE s e) fun _ _ => rfl
  case h_2 | h_5 | h_6 => exact Flow.withE_cycleEnd (busRead_setE _ s e) fun _ _ => rfl
  case h_7 => rfl

theorem callCycle_setE (h : Handler) (s : State) (e : Executor) :
    callCycle h (s.setE e) = (callCycle h s).withE e := by
  unfold callCycle
  split
  · exact Flow.withE_cycleEnd (fetchByte_setE s e) fun _ _ => rfl
  · exact Flow.withE_cycleEnd (dummyRead_setE _ s e) fun _ _ => rfl
  · exact Flow.withE_cycleEnd (push_setE _ s e) fun _ _ => rfl
  · exact Flow.withE_cycleEnd (push_setE _ s e) fun _ _ => rfl
  · exact Flow.withE_cycleEnd (busRead_setE _ s e) fun _ _ => rfl
  · rfl

theorem retCycle_setE (h : Handler) (s : State) (e : Executor) : retCycle h (s.setE e) = (retCycle h s).withE e := by
  unfold retCycle
  split
  case h_1 | h_2 | h_5 => exact Flow.withE_cycleEnd (dummyRead_setE _ s e) fun _ _ => rfl
  case h_3 | h_4 => exact Flow.withE_cycleEnd (pull_setE s e) fun _ _ => rfl
  case h_6 => rfl

theorem rtiCycle_setE (h : Handler) (s : State) (e : Executor) : rtiCycle h (s.setE e) = (rtiCycle h s).withE e := by
  unfold rtiCycle
  split
  case h_1 | h_2 => exact Flow.withE_cycleEnd (dummyRead_setE _ s e) fun _ _ => rfl
  case h_3 | h_4 | h_5 => exact Flow.withE_cycleEnd (pull_setE s e) fun _ _ => rfl
  case h_6 => rfl

/-- A handler's cycle does not look at the executor state. -/
theorem handlerCycle_setE (row : Row) (h : Handler) (s : State) (e : Executor) :
    handlerCycle row h (s.setE e) = (handlerCycle row h s).withE e := by
  unfold handlerCycle
  split
  case h_1 op ho => exact readCycle_setE (readOperation_setE ho) row.mode h s e
  case h_2 value ho => exact writeCycle_setE (writeOperation_setE ho) row.mode h s e
  case h_3 op ho => exact modifyCycle_setE op row.mode h s e
  case h_4 op ho => exact impliedCycle_setE (impliedOperation_setE ho) h s e
  case h_5 cond ho => exact branchCycle_setE cond h s e
  case h_6 value ho => exact pushCycle_setE (pushOperation_setE ho) h s e
  case h_7 op ho => exact pullCycle_setE (pullOperation_setE ho) h s e
  case h_8 ho => exact jumpCycle_setE row.mode h s e
  case h_9 ho => exact callCycle_setE h s e
  case h_10 ho => exact retCycle_setE h s e
  case h_11 ho => exact rtiCycle_setE h s e

/-! ## The cycles of a handler in a row -/

/-- How a run of cycles goes on after one of them (R82). -/
def CycleEnd.resume (c : CycleEnd) (h : Handler) (k : Handler → State → Answer) : Answer :=
  match c with
  | .more h' s => k { h' with t := h'.t + 1 } s
  | .complete s => .next s.complete
  | .stopped s => .next s
  | .none => .fault (.noSuchCycle h.op h.t)

/-- At most `n` cycles of a handler in a row: `finishInstr` without the executor state. -/
def runHandler (row : Row) : Nat → Handler → State → Answer
  | 0, h, s => .next (s.setE (.processing h))
  | n + 1, h, s => (handlerCycle row h s).resume h (runHandler row n)

theorem finishInstr_of_boundary {s : State} (n : Nat) (h : s.e = .fetchOpcode) : finishInstr n s = .next s := by
  cases n with
  | zero => rfl
  | succ n => simp only [finishInstr, h]

theorem finishInstr_of_done {s : State} {r : DoneReason} (n : Nat) (h : s.e = .done r) : finishInstr n s = .next s := by
  cases n with
  | zero => rfl
  | succ n => simp only [finishInstr, h]

theorem FailedAccess.finishInstr {s : State} (n : Nat) (h : FailedAccess s) : finishInstr n s = .next s := by
  rcases h with ⟨a, he, -⟩ | ⟨a, v, he, -⟩ <;> exact finishInstr_of_done n he

/-- An in-flight instruction is finished by the cycles of its handler. -/
theorem finishInstr_eq_runHandler {row : Row} (n : Nat) {h : Handler} {s : State} (hr : s.rst = false)
    (hd : dispatch h.op = some row) : finishInstr n (s.setE (.processing h)) = runHandler row n h s := by
  induction n generalizing h s with
  | zero => rfl
  | succ n ih =>
    have hw := handlerCycle_within row h s
    simp only [finishInstr, cycle, State.setE_e, State.setE_rst, hr, hd, Bool.false_eq_true, if_false,
      handlerCycle_setE, runHandler]
    cases hc : handlerCycle row h s with
    | more h' t =>
      rw [hc] at hw
      obtain ⟨⟨hop, -, -⟩, hran⟩ := hw
      exact ih (h := { h' with t := h'.t + 1 }) (hran.rst.trans hr) (by rw [← hd, ← hop])
    | complete t => exact finishInstr_of_boundary n rfl
    | stopped t =>
      rw [hc] at hw
      exact hw.2.finishInstr n
    | none => rfl

/-! ## Sequences of parts -/

/-- What a sequence answers, from what it does after its first part. -/
def Flow.andThen {α : Type} (f : Flow α) (k : α → State → Answer) : Answer :=
  match f with
  | .ok v s => k v s
  | .stopped s => .next s

theorem Flow.andThen_congr {α : Type} {f : Flow α} {k k' : α → State → Answer}
    (h : ∀ v s, f = .ok v s → k v s = k' v s) : f.andThen k = f.andThen k' := by
  cases f with
  | ok v s => exact h v s rfl
  | stopped s => rfl

theorem Flow.andThen_bind {α β : Type} (f : Flow α) (g : α → State → Flow β) (k : β → State → Answer) :
    (f.bind g).andThen k = f.andThen fun v s => (g v s).andThen k := by
  cases f <;> rfl

theorem Flow.andThen_ok {α : Type} (v : α) (s : State) (k : α → State → Answer) :
    (Flow.ok v s).andThen k = k v s := rfl

theorem Flow.answer_eq_andThen (f : Flow Unit) : f.answer = f.andThen fun _ s => .next s.complete := by
  cases f <;> rfl

/-- A sequence of parts answers what its first part and the rest of it do. -/
theorem Flow.answer_bind {α : Type} (f : Flow α) (g : α → State → Flow Unit) :
    (f.bind g).answer = f.andThen fun v s => (g v s).answer := by
  cases f <;> rfl

theorem Flow.cycleEnd_resume {α : Type} (f : Flow α) (c : α → State → CycleEnd) (h : Handler)
    (k : Handler → State → Answer) : (f.cycleEnd c).resume h k = f.andThen fun v s => (c v s).resume h k := by
  cases f <;> rfl

/-- One cycle of a handler, from the access it makes. -/
theorem runHandler_succ {α : Type} {row : Row} {h : Handler} {s : State} {f : Flow α} {c : α → State → CycleEnd}
    (n : Nat) (hc : handlerCycle row h s = f.cycleEnd c) :
    runHandler row (n + 1) h s = f.andThen fun v t => (c v t).resume h (runHandler row n) := by
  rw [runHandler, hc, Flow.cycleEnd_resume]

/-! ## The operand fetches -/

theorem fetchBytes_one_andThen (s : State) (k : List Byte → State → Answer) :
    (fetchBytes 1 s).andThen k = (fetchByte s).andThen fun b t => k [b] t := by
  simp only [fetchBytes, Flow.bind_ok, Flow.andThen_bind, Flow.andThen_ok]

theorem fetchBytes_two_andThen (s : State) (k : List Byte → State → Answer) :
    (fetchBytes 2 s).andThen k = (fetchByte s).andThen fun b t => (fetchByte t).andThen fun b' u => k [b, b'] u := by
  simp only [fetchBytes, Flow.bind_ok, Flow.andThen_bind, Flow.andThen_ok]

/-- A fetch leaves the index registers alone. -/
theorem fetchByte_indexes {s t : State} {b : Byte} (h : fetchByte s = .ok b t) : t.x = s.x ∧ t.y = s.y := by
  have hf : (fetchByte s).Meets (fun _ t => t.x = s.x ∧ t.y = s.y) (fun _ => True) :=
    Flow.Meets.bind ((busRead_meets s.pc s).weaken (fun _ _ h => h.2) fun _ _ => trivial) fun v u hu => by
      subst hu
      exact ⟨rfl, rfl⟩
  rw [h] at hf
  exact hf

/-! ## Memory operands -/

/-- The handler is at its first access at the effective address; where the mode always reads the unfixed address, the
accesses after it are at the same address. -/
def AtOperand (always : Bool) (m : Mode) (ea : Addr) (h : Handler) : Prop :=
  ∀ (j : Nat) (d : Byte) (s : State), always = true ∨ j = 0 →
    operandCycle always m { h with t := j + h.t, data := d } s = .operand j ea

/-- The cycles of a row are those of its mode, then the given accesses at the effective address. -/
def AccessesOperand (row : Row) (always : Bool) (m : Mode) (access : Handler → State → Nat → Addr → CycleEnd) : Prop :=
  ∀ h s, handlerCycle row h s = (operandCycle always m h s).finish (access h s)

/-- From `n` cycles on, a handler at its operand does `k` at the effective address. -/
def FinishesAt (row : Row) (always : Bool) (m : Mode) (n : Nat) (k : Addr → State → Answer) : Prop :=
  ∀ (f : Nat) (h : Handler) (ea : Addr) (s : State), n ≤ f → AtOperand always m ea h → runHandler row f h s = k ea s

section Operand

variable {row : Row} {always : Bool} {m : Mode} {access : Handler → State → Nat → Addr → CycleEnd} {n : Nat}
  {k : Addr → State → Answer}

/-- A cycle before the operand access. -/
theorem AccessesOperand.before {α : Type} (hc : AccessesOperand row always m access) {h : Handler} {s : State}
    {f : Flow α} {g : α → State → Handler}
    (ho : operandCycle always m h s = .before (f.cycleEnd fun v t => .more (g v t) t)) (n : Nat) :
    runHandler row (n + 1) h s = f.andThen fun v t => runHandler row n { g v t with t := (g v t).t + 1 } t :=
  runHandler_succ n (by rw [hc, ho]; rfl)

/-- The index addition and the read at the unfixed address (R105, R107): the handler holds the indexed low byte, the
high byte and the carry. -/
theorem runHandler_unfixed (hc : AccessesOperand row always m access) (hk : FinishesAt row always m n k)
    {h : Handler} {base : Addr} {idx : Byte} (s : State)
    (hhi : h.hi = hiByte base) (hlo : h.lo = loByte base + idx) (hcarry : h.carry = indexCarry (loByte base) idx)
    (ho : ∀ d s, operandCycle always m { h with data := d } s = unfixedCycle always { h with data := d } s)
    (hat : AtOperand always m h.fixed { h with t := h.t + 1 }) :
    runHandler row (n + 1) h s = (indexBase always base idx s).andThen k := by
  have hfixed : h.fixed = indexedAddr base idx := by
    rw [indexedAddr_eq_fixed, Handler.fixed, hhi, hlo, hcarry]
    rfl
  have hunfixed : h.unfixed = unfixedAddr base idx := by rw [Handler.unfixed, hhi, hlo]; rfl
  unfold indexBase
  rw [← hcarry]
  by_cases hread : (always || h.carry) = true
  · rw [if_pos hread, Flow.andThen_bind]
    have hu : operandCycle always m h s = .before ((busRead h.unfixed s).cycleEnd fun _ s => .more h s) :=
      (ho h.data s).trans (if_pos hread)
    rw [hc.before hu, hunfixed]
    refine Flow.andThen_congr fun v t _ => ?_
    rw [hk n _ _ t (Nat.le_refl n) hat, hfixed]
    rfl
  · rw [if_neg hread]
    obtain ⟨haf, hcf⟩ : always = false ∧ h.carry = false := by simpa using hread
    refine (hk (n + 1) h h.unfixed s (Nat.le_succ n) fun j d t hj => ?_).trans ?_
    · obtain rfl : j = 0 := hj.resolve_left (by simp [haf])
      rw [Nat.zero_add]
      exact (ho d t).trans (if_neg hread)
    · rw [hunfixed, unfixedAddr_eq_indexedAddr base idx (hcarry ▸ hcf)]
      rfl

/-- The cycles of a memory mode are its operand fetches and the address decoder (R102 to R107). -/
theorem runHandler_operand (hm : Mode.isMemory m = true) (hc : AccessesOperand row always m access)
    (hk : FinishesAt row always m n k) {h : Handler} (ht : h.t = 2) (s : State) :
    runHandler row (n + (Mode.addressEnd m - 1)) h s = (fetchBytes (Mode.operandBytes m) s).andThen
      (onOperand m fun o t => (o.resolve always t).andThen k) := by
  obtain ⟨op, t, lo, hi, ptr, data, carry⟩ := h
  obtain rfl : t = 2 := ht
  cases m
  case implied | accumulator | immediate | relative | absoluteIndirect => exact absurd hm (by decide)
  case zeroPage =>
    refine Eq.trans ?_ (fetchBytes_one_andThen s _).symm
    refine (hc.before (by rfl) n).trans (Flow.andThen_congr fun z u _ => ?_)
    exact hk n _ _ u (Nat.le_refl n) fun j d v _ => rfl
  case zeroPageX | zeroPageY =>
    refine Eq.trans ?_ (fetchBytes_one_andThen s _).symm
    refine (hc.before (by rfl) (n + 1)).trans (Flow.andThen_congr fun z u _ => ?_)
    refine (hc.before (by rfl) n).trans (Eq.trans (Flow.andThen_congr fun _ v _ => ?_) (Flow.andThen_bind _ _ _).symm)
    exact hk n _ _ v (Nat.le_refl n) fun j d w _ => rfl
  case absolute =>
    refine Eq.trans ?_ (fetchBytes_two_andThen s _).symm
    refine (hc.before (by rfl) (n + 1)).trans (Flow.andThen_congr fun lo u _ => ?_)
    refine (hc.before (by rfl) n).trans (Flow.andThen_congr fun hi v _ => ?_)
    exact hk n _ _ v (Nat.le_refl n) fun j d w _ => rfl
  case absoluteX | absoluteY =>
    refine Eq.trans ?_ (fetchBytes_two_andThen s _).symm
    refine (hc.before (by rfl) (n + 2)).trans (Flow.andThen_congr fun lo u _ => ?_)
    refine (hc.before (by rfl) (n + 1)).trans (Flow.andThen_congr fun hi v hv => ?_)
    obtain ⟨hx, hy⟩ := fetchByte_indexes hv
    refine (runHandler_unfixed hc hk (base := joinBytes hi lo) v (hiByte_joinBytes hi lo).symm
      (by rw [loByte_joinBytes]) (by rw [loByte_joinBytes]) (fun _ _ => rfl) fun _ _ _ _ => rfl).trans ?_
    simp only [← hx, ← hy]
    rfl
  case indirectX =>
    refine Eq.trans ?_ (fetchBytes_one_andThen s _).symm
    refine (hc.before (by rfl) (n + 3)).trans (Flow.andThen_congr fun z u _ => ?_)
    refine (hc.before (by rfl) (n + 2)).trans
      (Eq.trans (Flow.andThen_congr fun _ v _ => ?_) (Flow.andThen_bind _ _ _).symm)
    refine (hc.before (by rfl) (n + 1)).trans
      (Eq.trans (Flow.andThen_congr fun lo w _ => ?_) (Flow.andThen_bind _ _ _).symm)
    refine (hc.before (by rfl) n).trans (Eq.trans (Flow.andThen_congr fun hi r _ => ?_) (Flow.andThen_bind _ _ _).symm)
    exact hk n _ _ r (Nat.le_refl n) fun j d _ _ => rfl
  case indirectY =>
    refine Eq.trans ?_ (fetchBytes_one_andThen s _).symm
    refine (hc.before (by rfl) (n + 3)).trans (Flow.andThen_congr fun z u _ => ?_)
    refine Eq.trans ?_ (Flow.andThen_bind (readPointer z u) _ k).symm
    refine (hc.before (by rfl) (n + 2)).trans
      (Eq.trans (Flow.andThen_congr fun lo v _ => ?_) (Flow.andThen_bind _ _ _).symm)
    refine (hc.before (by rfl) (n + 1)).trans
      (Eq.trans (Flow.andThen_congr fun hi w _ => ?_) (Flow.andThen_bind _ _ _).symm)
    exact runHandler_unfixed hc hk (base := joinBytes hi lo) w (hiByte_joinBytes hi lo).symm
      (by rw [loByte_joinBytes]) (by rw [loByte_joinBytes]) (fun _ _ => rfl) fun _ _ _ _ => rfl

theorem FinishesAt.mono {n' : Nat} (hk : FinishesAt row always m n k) (hn : n ≤ n') : FinishesAt row always m n' k :=
  fun f h ea s hf => hk f h ea s (Nat.le_trans hn hf)

/-- The cycles that a handler has at most are enough for its operand's sequence. -/
theorem runHandler_operand_all (hm : Mode.isMemory m = true) (hc : AccessesOperand row always m access)
    (hk : FinishesAt row always m n k) (hn : n + Mode.addressEnd m ≤ maxHandlerCycles + 1) {h : Handler} (ht : h.t = 2)
    (s : State) :
    runHandler row maxHandlerCycles h s = (fetchBytes (Mode.operandBytes m) s).andThen
      (onOperand m fun o t => (o.resolve always t).andThen k) := by
  have hone := one_le_addressEnd m
  have hsplit : maxHandlerCycles = maxHandlerCycles + 1 - Mode.addressEnd m + (Mode.addressEnd m - 1) := by omega
  rw [hsplit]
  exact runHandler_operand hm hc (hk.mono (by omega)) ht s

/-- The handler's first access at the effective address. -/
theorem AtOperand.first {ea : Addr} {h : Handler} (hat : AtOperand always m ea h) (s : State) :
    operandCycle always m h s = .operand 0 ea := by
  simpa using hat 0 h.data s (.inr rfl)

/-- A later access at the effective address. -/
theorem AtOperand.later {ea : Addr} {h : Handler} (hat : AtOperand true m ea h) (j : Nat) (d : Byte) (s : State) :
    operandCycle true m { h with t := h.t + j, data := d } s = .operand j ea := by
  rw [Nat.add_comm]
  exact hat j d s (.inl rfl)

/-- A cycle at the effective address. -/
theorem AccessesOperand.at {α : Type} (hc : AccessesOperand row always m access) {h : Handler} {s : State} {j : Nat}
    {ea : Addr} {f : Flow α} {c : α → State → CycleEnd} (ho : operandCycle always m h s = .operand j ea)
    (ha : access h s j ea = f.cycleEnd c) (n : Nat) :
    runHandler row (n + 1) h s = f.andThen fun v t => (c v t).resume h (runHandler row n) :=
  runHandler_succ n (by rw [hc, ho]; exact ha)

end Operand

theorem addressEnd_le_five (m : Mode) : Mode.addressEnd m ≤ 5 := by
  cases m <;> decide

/-! ## The sequences of the classes with an operand -/

section OperandClasses

variable {row : Row} {h : Handler}

theorem runHandler_read {op : Byte → State → State} (ho : Mnemonic.operation row.mnemonic = .read op)
    (hm : row.mode = .immediate ∨ Mode.isMemory row.mode = true) (ht : h.t = 2) (s : State) :
    runHandler row maxHandlerCycles h s =
      (fetchBytes (Mode.operandBytes row.mode) s).andThen ((Operation.read op).meaning row.mode) := by
  have hcycle (h : Handler) (s : State) : handlerCycle row h s = readCycle op row.mode h s := by
    simp only [handlerCycle, ho]
  by_cases himm : row.mode = .immediate
  · rw [himm]
    refine Eq.trans ?_ (fetchBytes_one_andThen s _).symm
    exact (runHandler_succ 5 (by rw [hcycle, himm]; simp only [readCycle, ht]; rfl)).trans
      (Flow.andThen_congr fun v t _ => rfl)
  · have hc : AccessesOperand row false row.mode fun _ s => readAccess op s := fun h s => by
      rw [hcycle, readCycle_eq himm]
    have hk : FinishesAt row false row.mode 1 fun ea s =>
        (busRead ea s).andThen fun v s => .next (op v s).complete := by
      intro f h ea s hf hat
      obtain ⟨f, rfl⟩ : ∃ f', f = f' + 1 := ⟨f - 1, by omega⟩
      exact (hc.at (hat.first s) (by rfl) f).trans (Flow.andThen_congr fun v t _ => rfl)
    have hmem : (fun o => readMem o op) = fun (o : MemOperand) t => (o.resolve false t).andThen fun ea s =>
        (busRead ea s).andThen fun v s => .next (op v s).complete := by
      funext o t
      simp only [readMem, Flow.answer_bind, Flow.answer_ok]
    have hfive := addressEnd_le_five row.mode
    have hmeaning (bs : List Byte) : (Operation.read op).meaning row.mode bs = _ := if_neg himm
    simp only [funext hmeaning, hmem]
    exact runHandler_operand_all (hm.resolve_left himm) hc hk (show _ ≤ 7 by omega) ht s

theorem runHandler_write {value : State → Byte} (ho : Mnemonic.operation row.mnemonic = .write value)
    (hm : Mode.isMemory row.mode = true) (ht : h.t = 2) (s : State) :
    runHandler row maxHandlerCycles h s =
      (fetchBytes (Mode.operandBytes row.mode) s).andThen ((Operation.write value).meaning row.mode) := by
  have hc : AccessesOperand row true row.mode fun _ s => writeAccess value s := fun h s => by
    simp only [handlerCycle, ho, writeCycle_eq]
  have hk : FinishesAt row true row.mode 1 fun ea s => (busWrite ea (value s) s).answer := by
    intro f h ea s hf hat
    obtain ⟨f, rfl⟩ : ∃ f', f = f' + 1 := ⟨f - 1, by omega⟩
    exact (hc.at (hat.first s) (by rfl) f).trans (Flow.answer_eq_andThen _).symm
  have hmem : (fun o => writeMem o value) = fun (o : MemOperand) t => (o.resolve true t).andThen fun ea s =>
      (busWrite ea (value s) s).answer := by
    funext o t
    simp only [writeMem, Flow.answer_bind]
  have hfive := addressEnd_le_five row.mode
  show _ = (fetchBytes _ s).andThen (onOperand row.mode fun o => writeMem o value)
  rw [hmem]
  exact runHandler_operand_all hm hc hk (show _ ≤ 7 by omega) ht s

/-- The three accesses of a read-modify-write, at one address (R102 to R105). -/
theorem finishesAt_modifyAt {op : Byte → Flags → Byte × Flags} {m : Mode}
    (hc : AccessesOperand row true m (modifyAccess op)) :
    FinishesAt row true m 3 fun ea s => (modifyAt ea op s).answer := by
  intro f h ea s hf hat
  obtain ⟨f, rfl⟩ : ∃ f', f = f' + 3 := ⟨f - 3, by omega⟩
  refine (hc.at (hat.first s) (by rfl) (f + 2)).trans
    (Eq.trans (Flow.andThen_congr fun v t _ => ?_) (Flow.answer_bind _ _).symm)
  refine (hc.at (hat.later 1 v t) (by rfl) (f + 1)).trans
    (Eq.trans (Flow.andThen_congr fun _ u _ => ?_) (Flow.answer_bind _ _).symm)
  exact (hc.at (hat.later 2 _ _) (by rfl) f).trans (Flow.answer_eq_andThen _).symm

theorem runHandler_rmw {op : Byte → Flags → Byte × Flags} (ho : Mnemonic.operation row.mnemonic = .rmw op)
    (hm : (Operation.rmw op).hasMode row.mode = true) (ht : h.t = 2) (s : State) :
    runHandler row maxHandlerCycles h s =
      (fetchBytes (Mode.operandBytes row.mode) s).andThen ((Operation.rmw op).meaning row.mode) := by
  have hcycle (h : Handler) (s : State) : handlerCycle row h s = modifyCycle op row.mode h s := by
    simp only [handlerCycle, ho]
  by_cases hacc : row.mode = .accumulator
  · rw [hacc]
    show _ = impliedOp (onAccumulator op) s
    refine Eq.trans ?_ (Flow.answer_bind _ _).symm
    exact (runHandler_succ 5 (by rw [hcycle, hacc]; simp only [modifyCycle, impliedCycle, ht]; rfl)).trans
      (Flow.andThen_congr fun _ _ _ => rfl)
  · have hc : AccessesOperand row true row.mode (modifyAccess op) := fun h s => by
      rw [hcycle, modifyCycle_eq hacc]
    have hmem : (fun o => modifyMem o op) = fun (o : MemOperand) t => (o.resolve true t).andThen fun ea s =>
        (modifyAt ea op s).answer := by
      funext o t
      simp only [modifyMem, Flow.answer_bind]
    have hfour : Mode.addressEnd row.mode ≤ 4 := by
      revert hm
      cases row.mode <;> simp [Operation.hasMode, Mode.addressEnd]
    have hmeaning (bs : List Byte) : (Operation.rmw op).meaning row.mode bs = _ := if_neg hacc
    simp only [funext hmeaning, hmem]
    exact runHandler_operand_all ((rmw_mode hm).resolve_left hacc) hc (finishesAt_modifyAt hc)
      (show _ ≤ 7 by omega) ht s

end OperandClasses

/-! ## The sequences of the other classes -/

/-- One cycle of a handler whose class has the cycles `cyc`. -/
theorem runHandler_cycle {α : Type} {row : Row} {cyc : Handler → State → CycleEnd}
    (hc : ∀ h s, handlerCycle row h s = cyc h s) {h : Handler} {s : State} {f : Flow α} {c : α → State → CycleEnd}
    (n : Nat) (hh : cyc h s = f.cycleEnd c) :
    runHandler row (n + 1) h s = f.andThen fun v t => (c v t).resume h (runHandler row n) :=
  runHandler_succ n ((hc h s).trans hh)

/-- One cycle of a handler and the rest of its sequence. -/
theorem runHandler_bind {α : Type} {row : Row} {cyc : Handler → State → CycleEnd}
    (hc : ∀ h s, handlerCycle row h s = cyc h s) {h : Handler} {s : State} {f : Flow α} {c : α → State → CycleEnd}
    {g : α → State → Flow Unit} (n : Nat) (hh : cyc h s = f.cycleEnd c)
    (hrest : ∀ v t, (c v t).resume h (runHandler row n) = (g v t).answer) :
    runHandler row (n + 1) h s = (f.bind g).answer := by
  rw [runHandler_cycle hc n hh, Flow.answer_bind]
  exact Flow.andThen_congr fun v t _ => hrest v t

section OtherClasses

variable {row : Row} {h : Handler}

theorem runHandler_implied {op : State → State} (hc : ∀ h s, handlerCycle row h s = impliedCycle op h s)
    (ht : h.t = 2) (s : State) : runHandler row maxHandlerCycles h s = impliedOp op s := by
  obtain ⟨o, t, lo, hi, ptr, data, carry⟩ := h
  obtain rfl : t = 2 := ht
  exact runHandler_bind hc 5 (by rfl) fun _ _ => by rfl

theorem runHandler_push {value : State → Byte} (hc : ∀ h s, handlerCycle row h s = pushCycle value h s)
    (ht : h.t = 2) (s : State) : runHandler row maxHandlerCycles h s = pushOp value s := by
  obtain ⟨o, t, lo, hi, ptr, data, carry⟩ := h
  obtain rfl : t = 2 := ht
  refine runHandler_bind hc 5 (by rfl) fun _ _ => ?_
  exact (runHandler_cycle hc 4 (by rfl)).trans (Flow.answer_eq_andThen _).symm

theorem runHandler_pull {op : Byte → State → State} (hc : ∀ h s, handlerCycle row h s = pullCycle op h s)
    (ht : h.t = 2) (s : State) : runHandler row maxHandlerCycles h s = pullOp op s := by
  obtain ⟨o, t, lo, hi, ptr, data, carry⟩ := h
  obtain rfl : t = 2 := ht
  refine runHandler_bind hc 5 (by rfl) fun _ _ => ?_
  refine runHandler_bind hc 4 (by rfl) fun _ _ => ?_
  exact runHandler_bind hc 3 (by rfl) fun _ _ => by rfl

theorem runHandler_ret (hc : ∀ h s, handlerCycle row h s = retCycle h s) (ht : h.t = 2) (s : State) :
    runHandler row maxHandlerCycles h s = execRts s := by
  obtain ⟨o, t, lo, hi, ptr, data, carry⟩ := h
  obtain rfl : t = 2 := ht
  refine runHandler_bind hc 5 (by rfl) fun _ _ => ?_
  refine runHandler_bind hc 4 (by rfl) fun _ _ => ?_
  refine runHandler_bind hc 3 (by rfl) fun _ _ => ?_
  refine runHandler_bind hc 2 (by rfl) fun _ _ => ?_
  exact runHandler_bind hc 1 (by rfl) fun _ _ => by rfl

theorem runHandler_rti (hc : ∀ h s, handlerCycle row h s = rtiCycle h s) (ht : h.t = 2) (s : State) :
    runHandler row maxHandlerCycles h s = execRti s := by
  obtain ⟨o, t, lo, hi, ptr, data, carry⟩ := h
  obtain rfl : t = 2 := ht
  refine runHandler_bind hc 5 (by rfl) fun _ _ => ?_
  refine runHandler_bind hc 4 (by rfl) fun _ _ => ?_
  refine runHandler_bind hc 3 (by rfl) fun _ _ => ?_
  refine runHandler_bind hc 2 (by rfl) fun _ _ => ?_
  exact runHandler_bind hc 1 (by rfl) fun _ _ => by rfl

/-- The condition is evaluated in the cycle of the operand fetch (R108). -/
theorem runHandler_branch {cond : Flags → Bool} (hc : ∀ h s, handlerCycle row h s = branchCycle cond h s)
    (ht : h.t = 2) (s : State) :
    runHandler row maxHandlerCycles h s = (fetchBytes 1 s).andThen (onByte (branchIf cond)) := by
  obtain ⟨o, t, lo, hi, ptr, data, carry⟩ := h
  obtain rfl : t = 2 := ht
  refine (runHandler_cycle hc 5 (by rfl)).trans
    (Eq.trans (Flow.andThen_congr fun offset t _ => ?_) (fetchBytes_one_andThen s _).symm)
  show _ = branchIf cond offset t
  unfold branchIf
  split
  · refine runHandler_bind hc 4 (by rfl) fun _ _ => ?_
    simp only
    split
    · exact (runHandler_cycle hc 3 (by rfl)).trans (Flow.answer_eq_andThen _).symm
    · rfl
  · rfl

theorem runHandler_jumpAbsolute (hc : ∀ h s, handlerCycle row h s = jumpCycle .absolute h s) (ht : h.t = 2)
    (s : State) :
    runHandler row maxHandlerCycles h s = (fetchBytes 2 s).andThen (onTarget execJmpAbs) := by
  obtain ⟨o, t, lo, hi, ptr, data, carry⟩ := h
  obtain rfl : t = 2 := ht
  refine (runHandler_cycle hc 5 (by rfl)).trans
    (Eq.trans (Flow.andThen_congr fun lo t _ => ?_) (fetchBytes_two_andThen s _).symm)
  refine (runHandler_cycle hc 4 (by rfl)).trans (Eq.trans ?_ (Flow.andThen_bind _ _ _).symm)
  exact Flow.andThen_congr fun hi u _ => rfl

theorem runHandler_jumpIndirect (hc : ∀ h s, handlerCycle row h s = jumpCycle .absoluteIndirect h s) (ht : h.t = 2)
    (s : State) :
    runHandler row maxHandlerCycles h s = (fetchBytes 2 s).andThen (onTarget execJmpInd) := by
  obtain ⟨o, t, lo, hi, ptr, data, carry⟩ := h
  obtain rfl : t = 2 := ht
  refine (runHandler_cycle hc 5 (by rfl)).trans
    (Eq.trans (Flow.andThen_congr fun lo t _ => ?_) (fetchBytes_two_andThen s _).symm)
  refine (runHandler_cycle hc 4 (by rfl)).trans (Flow.andThen_congr fun hi u _ => ?_)
  refine runHandler_bind hc 3 (by rfl) fun _ _ => ?_
  rw [indirectHigh, hiByte_joinBytes, loByte_joinBytes]
  exact runHandler_bind hc 2 (by rfl) fun _ _ => by rfl

/-- The high target byte is not fetched before the pushes: it is left to the last cycle (R110). -/
theorem runHandler_call (hc : ∀ h s, handlerCycle row h s = callCycle h s) (ht : h.t = 2) (hi : State → Byte)
    (s : State) :
    runHandler row maxHandlerCycles h s =
      (fetchBytes 1 s).andThen fun bs t => onTarget execJsr (bs ++ [hi t]) t := by
  obtain ⟨o, t, lo, hi, ptr, data, carry⟩ := h
  obtain rfl : t = 2 := ht
  refine (runHandler_cycle hc 5 (by rfl)).trans
    (Eq.trans (Flow.andThen_congr fun lo t _ => ?_) (fetchBytes_one_andThen s _).symm)
  refine runHandler_bind hc 4 (by rfl) fun _ _ => ?_
  refine runHandler_bind hc 3 (by rfl) fun _ _ => ?_
  refine runHandler_bind hc 2 (by rfl) fun _ _ => ?_
  rw [loByte_joinBytes]
  exact runHandler_bind hc 1 (by rfl) fun _ _ => by rfl

end OtherClasses

/-! ## From the fetched bytes to the meaning -/

/-- An encoding begins with its opcode, byte $00 included. -/
theorem encode_eq_cons (i : Instr) : encode i = i.opcode :: (encode i).tail := by
  cases hr : i.row with
  | none =>
    cases eq_halt_of_row_none hr
    rfl
  | some row => exact (encodedBy_row hr).opcode

/-- The decoder finds an instruction of the row in a dispatched opcode and its operand bytes, and the instruction means
what the row means at those bytes (R60, R62, R84). -/
theorem decode_meaning {op : Byte} {row : Row} {bs : List Byte} (hd : dispatch op = some row)
    (hl : bs.length = row.format.operandBytes) :
    ∃ i, decode (op :: bs) = .ok (i, []) ∧ exec i = Row.meaning row bs := by
  obtain ⟨i, rest, hdec⟩ := decode_of_enough hd hl.ge
  have hcat := decodeThenEncode _ _ _ hdec
  rw [encode_eq_cons i, List.cons_append] at hcat
  obtain ⟨rfl, rfl⟩ := List.cons.inj hcat
  obtain ⟨-, hlen, -⟩ := encodedBy_row hd
  obtain rfl : rest = [] := List.eq_nil_of_length_eq_zero (by rw [List.length_append] at hl; omega)
  rw [List.append_nil] at hdec ⊢
  exact ⟨i, hdec, exec_eq_meaning hd⟩

/-- But for JSR, all operand bytes are fetched before the meaning (R101 to R110). -/
theorem fetched_meaning_of_ne_call {op : Byte} {row : Row} (hd : dispatch op = some row) (hc : row.cls ≠ .call)
    (s : State) :
    ((fetchBytes (Row.leadingFetches row) s).andThen fun bs t =>
        Row.meaning row (bs ++ laterBytes (row.format.operandBytes - Row.leadingFetches row) t) t) =
      (fetchBytes (Mode.operandBytes row.mode) s).andThen (Row.meaning row) := by
  rw [leadingFetches_of_ne_call hc, ← format_operandBytes_eq_mode hd, Nat.sub_self]
  simp only [laterBytes, if_true, List.append_nil]

/-- But for JSR's, the cycles of a handler are the operand fetches and the sequence of its operation (R100 to R110). -/
theorem runHandler_operation {row : Row} {o : Operation} (ho : Mnemonic.operation row.mnemonic = o)
    (hm : o.hasMode row.mode = true) (hcall : o ≠ .call) {h : Handler} (ht : h.t = 2) (s : State) :
    runHandler row maxHandlerCycles h s =
      (fetchBytes (Mode.operandBytes row.mode) s).andThen fun bs => o.meaning row.mode bs := by
  cases o with
  | read op => exact runHandler_read ho (by simpa [Operation.hasMode] using hm) ht s
  | write value => exact runHandler_write ho hm ht s
  | rmw op => exact runHandler_rmw ho hm ht s
  | implied op =>
    rw [show row.mode = .implied by simpa [Operation.hasMode] using hm]
    exact runHandler_implied (fun h s => by simp only [handlerCycle, ho]) ht s
  | branch cond =>
    rw [show row.mode = .relative by simpa [Operation.hasMode] using hm]
    exact runHandler_branch (fun h s => by simp only [handlerCycle, ho]) ht s
  | push value =>
    rw [show row.mode = .implied by simpa [Operation.hasMode] using hm]
    exact runHandler_push (fun h s => by simp only [handlerCycle, ho]) ht s
  | pull op =>
    rw [show row.mode = .implied by simpa [Operation.hasMode] using hm]
    exact runHandler_pull (fun h s => by simp only [handlerCycle, ho]) ht s
  | jump =>
    obtain hmode | hmode : row.mode = .absolute ∨ row.mode = .absoluteIndirect := by
      simpa [Operation.hasMode] using hm
    · rw [hmode]
      exact runHandler_jumpAbsolute (fun h s => by simp only [handlerCycle, ho, hmode]) ht s
    · rw [hmode]
      exact runHandler_jumpIndirect (fun h s => by simp only [handlerCycle, ho, hmode]) ht s
  | call => exact absurd rfl hcall
  | ret =>
    rw [show row.mode = .implied by simpa [Operation.hasMode] using hm]
    exact runHandler_ret (fun h s => by simp only [handlerCycle, ho]) ht s
  | rti =>
    rw [show row.mode = .implied by simpa [Operation.hasMode] using hm]
    exact runHandler_rti (fun h s => by simp only [handlerCycle, ho]) ht s

theorem cls_eq_call_iff {op : Byte} {row : Row} (hd : dispatch op = some row) :
    row.cls = .call ↔ Mnemonic.operation row.mnemonic = .call := by
  rw [cls_eq_of_dispatch hd]
  cases Mnemonic.operation row.mnemonic <;> simp [Operation.cls] <;> split <;> simp

theorem leadingFetches_of_call {row : Row} (hc : row.cls = .call) : Row.leadingFetches row = 1 := by
  simp only [Row.leadingFetches, hc]

theorem operandBytes_of_call {op : Byte} {row : Row} (hd : dispatch op = some row) (hc : row.cls = .call) :
    row.format.operandBytes = 2 := by
  have hmode := hasMode_of_dispatch hd
  have habs : row.mode = .absolute := by simpa [(cls_eq_call_iff hd).mp hc, Operation.hasMode] using hmode
  rw [format_operandBytes_eq_mode hd, habs]
  rfl

/-- The operand bytes fetched first and the one JSR leaves for later are the operand bytes of the row (R110). -/
theorem leadingFetches_add_laterBytes {op : Byte} {row : Row} (hd : dispatch op = some row) (s : State) :
    Row.leadingFetches row + (laterBytes (row.format.operandBytes - Row.leadingFetches row) s).length =
      row.format.operandBytes := by
  by_cases hc : row.cls = .call
  · rw [leadingFetches_of_call hc, operandBytes_of_call hd hc]
    rfl
  · rw [leadingFetches_of_ne_call hc, Nat.sub_self]
    rfl

/-- The cycles of a fresh handler are the operand fetches of its row and the meaning of the row (R82, R98). -/
theorem runHandler_row {op : Byte} {row : Row} (hd : dispatch op = some row) {h : Handler} (ht : h.t = 2) (s : State) :
    runHandler row maxHandlerCycles h s = (fetchBytes (Row.leadingFetches row) s).andThen fun bs t =>
      Row.meaning row (bs ++ laterBytes (row.format.operandBytes - Row.leadingFetches row) t) t := by
  have hmode := hasMode_of_dispatch hd
  by_cases hcall : row.cls = .call
  · have ho := (cls_eq_call_iff hd).mp hcall
    rw [leadingFetches_of_call hcall, operandBytes_of_call hd hcall]
    simp only [Row.meaning, ho]
    exact runHandler_call (fun h s => by simp only [handlerCycle, ho]) ht (fun t => t.byteAt t.pc) s
  · rw [fetched_meaning_of_ne_call hd hcall]
    exact runHandler_operation rfl hmode (mt (cls_eq_call_iff hd).mpr hcall) ht s

/-! ## The step -/

/-- The operand fetches of a dispatched opcode and what its instruction means are the meaning of its row (R81, R85). -/
theorem runInstr_of_dispatched {s t : State} {op : Byte} {row : Row} (hf : fetchByte s = .ok op t)
    (hd : dispatch op = some row) :
    runInstr s = (fetchBytes (Row.leadingFetches row) t).andThen fun bs t =>
      Row.meaning row (bs ++ laterBytes (row.format.operandBytes - Row.leadingFetches row) t) t := by
  have hrun := fetchBytes_runs (Row.leadingFetches row) t
  unfold runInstr fetchInstr
  rw [hf, Flow.bind_ok]
  simp only [hd]
  cases hb : fetchBytes (Row.leadingFetches row) t with
  | stopped u => rfl
  | ok bs u =>
    rw [hb] at hrun
    obtain ⟨-, hlen⟩ := hrun
    obtain ⟨i, hdec, hi⟩ := decode_meaning (bs := bs ++ laterBytes (row.format.operandBytes - Row.leadingFetches row) u)
      hd (by rw [List.length_append, hlen, leadingFetches_add_laterBytes hd])
    rw [Flow.bind_ok, Flow.andThen_ok, List.cons_append, hdec]
    exact congrFun hi u

/-- A byte that is no dispatched opcode ends the step with the fatal event of the cycle (R70, R218, R231). -/
theorem runInstr_of_undispatched {s t : State} {op : Byte} (hf : fetchByte s = .ok op t) (hd : dispatch op = none) :
    runInstr s = .next (takeFatal (.unknownOpcode op) t) := by
  unfold runInstr fetchInstr
  rw [hf, Flow.bind_ok]
  simp only [hd, decode]
  by_cases hop : op = haltByte
  · subst hop
    rfl
  · simp only [if_neg hop]

/-- Settles O12: after the opcode fetch, the cycles of the fresh handler are its row's fetches and sequence, and so is
the step. -/
theorem cyclesMakeTheStep : Obligations.CyclesMakeTheStep := by
  intro s hr he
  have hruns := fetchByte_runs s
  rw [step_fetchOpcode hr he, instructionByCycles, cycle_fetchOpcode hr he, fetchCycle]
  cases hf : fetchByte s with
  | stopped t =>
    rw [hf] at hruns
    rw [runInstr, fetchInstr, hf, Flow.bind_stopped]
    exact hruns.2.finishInstr _
  | ok op t =>
    rw [hf] at hruns
    cases hd : dispatch op with
    | none =>
      rw [runInstr_of_undispatched hf hd]
      simp only [hd]
      exact finishInstr_of_done _ rfl
    | some row =>
      rw [runInstr_of_dispatched hf hd]
      simp only [hd]
      exact (finishInstr_eq_runHandler _ (hruns.rst.trans hr) hd).trans (runHandler_row hd rfl t)

end Sys2Proof.Machine
end

section
/-! PROOFS. Plain RAM grants every access: the cycle count of every instruction (R111, R258, R259). -/

namespace Sys2Proof.Machine

open Sys2Proof

/-! ## What plain RAM grants -/

section PlainRam

variable {s : State}

/-- Which memory is RAM is the windows' to say. -/
theorem State.plainRam.of_regions {t : State} (h : s.plainRam) (hr : t.bus.regions = s.bus.regions) : t.plainRam := by
  intro a
  rw [Bus.kindAt, hr]
  exact h a

theorem State.plainRam.grants_read (h : s.plainRam) (a : Addr) (v : Byte) : s.bus.grants (.read a v) = true := by
  simp only [Bus.grants, Bus.canRead, h a]

theorem State.plainRam.grants_readCycleAt (h : s.plainRam) (a : Addr) : s.bus.grants (s.readCycleAt a) = true :=
  h.grants_read a _

theorem State.plainRam.grants_write (h : s.plainRam) (a : Addr) (v : Byte) : s.bus.grants (.write a v) = true := by
  simp only [Bus.grants, Bus.canWrite, h a]

theorem State.plainRam.grants_dummyCycle (h : s.plainRam) (a : Addr) : s.bus.grants (s.dummyCycle a) = true := by
  unfold State.dummyCycle
  cases s.params.internalAccess with
  | nmosDummyRead => exact h.grants_read a _
  | noAccess => rfl

theorem State.plainRam.grantsAll_fetchCyclesAt (h : s.plainRam) (a : Addr) (bs : List Byte) :
    s.grantsAll (fetchCyclesAt a bs) := by
  induction bs generalizing a with
  | nil => exact s.grantsAll_nil
  | cons b bs ih => exact State.grantsAll_cons.2 ⟨h.grants_read a b, ih (a + 1#16)⟩

theorem State.plainRam.grantsAll_fixupCycles (h : s.plainRam) (always : Bool) (base : Addr) (idx : Byte) :
    s.grantsAll (fixupCycles always base idx s) := by
  unfold fixupCycles
  split
  · exact State.grantsAll_cons.2 ⟨h.grants_readCycleAt _, s.grantsAll_nil⟩
  · exact s.grantsAll_nil

theorem State.plainRam.grantsAll_addressCycles (h : s.plainRam) (always : Bool) (o : MemOperand) :
    s.grantsAll (o.addressCycles always s) := by
  cases o <;>
    simp [MemOperand.addressCycles, State.grantsAll_cons, State.grantsAll_nil, h.grants_dummyCycle,
      h.grants_readCycleAt, h.grantsAll_fixupCycles]

theorem State.plainRam.grantsAll_takenCycles (h : s.plainRam) (offset : Byte) : s.grantsAll (takenCycles offset s) := by
  unfold takenCycles
  refine State.grantsAll_cons.2 ⟨h.grants_dummyCycle _, ?_⟩
  split
  · exact State.grantsAll_cons.2 ⟨h.grants_dummyCycle _, s.grantsAll_nil⟩
  · exact s.grantsAll_nil

end PlainRam

/-! ## The cycles of a sequence on plain RAM -/

/-- The answer ends the instruction, `n` cycles after `s`. -/
def CompletesIn (n : Nat) (s : State) (r : Answer) : Prop :=
  ∃ t, r = .next t ∧ t.e = .fetchOpcode ∧ t.cycles = s.cycles + n

section Sequences

variable {s : State} {row : Row}

theorem readMem_completesIn (h : s.plainRam) (o : MemOperand) {op : Byte → State → State}
    (ho : Mnemonic.operation row.mnemonic = .read op) :
    CompletesIn ((o.addressCycles false s).length + 1) s (readMem o op s) := by
  have hg : s.grantsAll ((ReadOperand.mem o).cycles s) := State.grantsAll_append.2
    ⟨h.grantsAll_addressCycles false o, State.grantsAll_cons.2 ⟨h.grants_readCycleAt _, s.grantsAll_nil⟩⟩
  refine ⟨_, readMem_granted hg, rfl, (readOperation_operated ho _ _).cycles.trans ?_⟩
  simp [ReadOperand.cycles]

theorem writeMem_completesIn (h : s.plainRam) (o : MemOperand) (value : State → Byte) :
    CompletesIn ((o.addressCycles true s).length + 1) s (writeMem o value s) := by
  refine ⟨_, writeMem_granted rfl (State.grantsAll_append.2 ⟨h.grantsAll_addressCycles true o,
    State.grantsAll_cons.2 ⟨h.grants_write _ _, s.grantsAll_nil⟩⟩), rfl, ?_⟩
  simp [MemOperand.storeCycles]

theorem modifyMem_completesIn (h : s.plainRam) (o : MemOperand) (op : Byte → Flags → Byte × Flags) :
    CompletesIn ((o.addressCycles true s).length + 3) s (modifyMem o op s) := by
  unfold modifyMem modifyAt
  rw [MemOperand.resolve_granted (h.grantsAll_addressCycles true o), Flow.bind_ok,
    busRead_granted (by simpa using h.grants_readCycleAt _), Flow.bind_ok,
    busWrite_granted (State.plainRam.grants_write (h.of_regions (by rfl)) _ _), Flow.bind_ok,
    busWrite_granted (State.plainRam.grants_write (h.of_regions (by rfl)) _ _)]
  exact ⟨_, rfl, rfl, by simp⟩

theorem impliedOp_completesIn (h : s.plainRam) {op : State → State} (hop : ∀ s, (op s).cycles = s.cycles) :
    CompletesIn 1 s (impliedOp op s) :=
  ⟨_, impliedOp_granted (State.grantsAll_cons.2 ⟨h.grants_dummyCycle _, s.grantsAll_nil⟩), rfl, hop _⟩

theorem pushOp_completesIn (h : s.plainRam) (value : State → Byte) : CompletesIn 2 s (pushOp value s) := by
  refine ⟨_, pushOp_granted rfl ?_, rfl, rfl⟩
  simp [State.grantsAll_cons, State.grantsAll_nil, h.grants_dummyCycle, h.grants_write]

theorem pullOp_completesIn (h : s.plainRam) {op : Byte → State → State}
    (ho : Mnemonic.operation row.mnemonic = .pull op) : CompletesIn 3 s (pullOp op s) := by
  refine ⟨_, pullOp_granted ?_, rfl, (pullOperation_operated ho _ _).cycles⟩
  simp [State.grantsAll_cons, State.grantsAll_nil, h.grants_dummyCycle, h.grants_readCycleAt]

theorem execJmpInd_completesIn (h : s.plainRam) (ptr : Addr) : CompletesIn 2 s (execJmpInd ptr s) := by
  refine ⟨_, execJmpInd_granted ?_, rfl, rfl⟩
  simp [State.grantsAll_cons, State.grantsAll_nil, h.grants_readCycleAt]

theorem execJsr_completesIn (h : s.plainRam) (a : Addr) : CompletesIn 4 s (execJsr a s) := by
  refine ⟨_, execJsr_granted ?_, rfl, rfl⟩
  simp [callCycles, State.grantsAll_cons, State.grantsAll_nil, h.grants_dummyCycle, h.grants_write, h.grants_read]

theorem execRts_completesIn (h : s.plainRam) : CompletesIn 5 s (execRts s) := by
  refine ⟨_, execRts_granted ?_, rfl, rfl⟩
  simp [returnCycles, State.grantsAll_cons, State.grantsAll_nil, h.grants_dummyCycle, h.grants_readCycleAt]

theorem execRti_completesIn (h : s.plainRam) : CompletesIn 5 s (execRti s) := by
  refine ⟨_, execRti_granted ?_, rfl, rfl⟩
  simp [State.grantsAll_cons, State.grantsAll_nil, h.grants_dummyCycle, h.grants_readCycleAt]

theorem branchIf_completesIn (h : s.plainRam) (cond : Flags → Bool) (offset : Byte) :
    CompletesIn (if cond s.p then (if branchCrosses s.pc (branchTarget s.pc offset) then 2 else 1) else 0) s
      (branchIf cond offset s) := by
  cases hc : cond s.p with
  | false => exact ⟨_, branchIf_not_taken hc, rfl, rfl⟩
  | true =>
    refine ⟨_, branchIf_granted hc (h.grantsAll_takenCycles offset), rfl, ?_⟩
    by_cases hpage : hiByte (branchTarget s.pc offset) = hiByte s.pc <;>
      simp [length_takenCycles, branchCrosses, hpage]

end Sequences

/-! ## The summary's counts -/

theorem branchTaken_eq {m : Mnemonic} {cond : Flags → Bool} (h : Mnemonic.operation m = .branch cond) :
    branchTaken m = cond := by
  cases m <;> cases h <;> rfl

theorem length_fixupCycles (always : Bool) (base : Addr) (idx : Byte) (s : State) :
    (fixupCycles always base idx s).length = if always || indexCarry (loByte base) idx then 1 else 0 := by
  unfold fixupCycles
  split <;> rfl

/-- A read's cycles are the summary's, and one more where its index addition carries (R111, R258). -/
theorem summaryCycles_read {row : Row} {bs : List Byte} {o : MemOperand} {s t : State} (hc : row.cls = .read)
    (hm : Mode.memOperand row.mode bs = some o) (hx : t.x = s.x) (hy : t.y = s.y)
    (hb : ∀ a, t.byteAt a = s.byteAt a) :
    1 + bs.length + ((o.addressCycles false t).length + 1) =
      summaryCycles row.cls row.mode + extraCycles row bs s := by
  unfold Mode.memOperand at hm
  split at hm <;> cases hm
  all_goals
    next hmode =>
      simp [hc, hmode, summaryCycles, extraCycles, MemOperand.addressCycles, length_fixupCycles, peekPointer, hx, hy,
        hb] <;> omega

/-- A store's or read-modify-write's cycles are the summary's: the read at the unfixed address always happens
(R111, R258). -/
theorem summaryCycles_always {row : Row} {bs : List Byte} {o : MemOperand} {t : State}
    (hm : Mode.memOperand row.mode bs = some o) :
    summaryCycles .write row.mode = 1 + bs.length + ((o.addressCycles true t).length + 1) ∧
      (row.mode ∈ [.zeroPage, .zeroPageX, .absolute, .absoluteX] →
        summaryCycles .rmw row.mode = 1 + bs.length + ((o.addressCycles true t).length + 3)) := by
  unfold Mode.memOperand at hm
  split at hm <;> cases hm
  all_goals
    next hmode => simp [hmode, summaryCycles, MemOperand.addressCycles, length_fixupCycles]

/-- Only a read and a branch have extra cycles (R258, R259). -/
theorem extraCycles_eq_zero {row : Row} (hread : row.cls ≠ .read) (hbranch : row.cls ≠ .branch) (bs : List Byte)
    (s : State) : extraCycles row bs s = 0 := by
  unfold extraCycles
  split
  all_goals simp_all

/-- The count of an instruction whose operand bytes are all fetched first and that has no extra cycles. -/
theorem count_of_fixed {op : Byte} {row : Row} (hd : dispatch op = some row) {c : OpClass} {m : Mode} {n : Nat}
    (hcls : row.cls = c) (hmode : row.mode = m) (hc : c ≠ .read ∧ c ≠ .branch ∧ c ≠ .call)
    (hn : 1 + Mode.operandBytes m + n = summaryCycles c m) (bs : List Byte) (s : State) :
    1 + Row.leadingFetches row + n = summaryCycles row.cls row.mode + extraCycles row bs s := by
  subst hcls hmode
  obtain ⟨hread, hbranch, hcall⟩ := hc
  rw [extraCycles_eq_zero hread hbranch, leadingFetches_of_ne_call hcall, format_operandBytes_eq_mode hd, hn,
    Nat.add_zero]

/-- A memory mode's operand bytes are an operand (R63). -/
theorem memOperand_of_length {m : Mode} {bs : List Byte} (hm : Mode.isMemory m = true)
    (hl : bs.length = Mode.operandBytes m) : ∃ o, Mode.memOperand m bs = some o := by
  cases m
  case implied | accumulator | immediate | relative | absoluteIndirect => exact absurd hm (by decide)
  case zeroPage | zeroPageX | zeroPageY | indirectX | indirectY =>
    obtain ⟨z, rfl⟩ := List.length_eq_one_iff.1 hl
    exact ⟨_, rfl⟩
  case absolute | absoluteX | absoluteY =>
    obtain ⟨lo, hi, rfl⟩ := List.length_eq_two.1 hl
    exact ⟨_, rfl⟩

/-- On plain RAM, the meaning of a row at its operand bytes completes the instruction in the cycles the summary leaves
to it after the fetches (R111, R258, R259). -/
theorem meaning_completesIn {op : Byte} {row : Row} (hd : dispatch op = some row) {bs : List Byte}
    (hl : bs.length = Mode.operandBytes row.mode) {s t : State} (h : t.plainRam) (hx : t.x = s.x) (hy : t.y = s.y)
    (hp : t.p = s.p) (hb : ∀ a, t.byteAt a = s.byteAt a)
    (hpc : t.pc = s.pc + BitVec.ofNat 16 (1 + Row.leadingFetches row)) :
    ∃ n, CompletesIn n t (Row.meaning row bs t) ∧
      1 + Row.leadingFetches row + n = summaryCycles row.cls row.mode + extraCycles row bs s := by
  have hcls := cls_eq_of_dispatch hd
  have hmode := hasMode_of_dispatch hd
  have hlead (hc : row.cls ≠ .call) : Row.leadingFetches row = bs.length := by
    rw [leadingFetches_of_ne_call hc, format_operandBytes_eq_mode hd, hl]
  have himplied (h : (row.mode == .implied) = true) : row.mode = .implied := by simpa using h
  unfold Row.meaning
  cases ho : Mnemonic.operation row.mnemonic with
  | read o =>
    rw [ho] at hcls hmode
    obtain hcls : row.cls = .read := hcls
    rw [hlead (by simp [hcls])]
    by_cases himm : row.mode = .immediate
    · rw [himm] at hl ⊢
      obtain ⟨v, rfl⟩ := List.length_eq_one_iff.1 hl
      exact ⟨0, ⟨_, rfl, rfl, (readOperation_operated ho v t).cycles⟩, by
        simp [hcls, himm, summaryCycles, extraCycles]⟩
    · obtain ⟨a, ha⟩ := memOperand_of_length
        ((by simpa [Operation.hasMode] using hmode : row.mode = .immediate ∨ _).resolve_left himm) hl
      rw [Operation.meaning, if_neg himm, onOperand_of_some ha]
      exact ⟨_, readMem_completesIn h a ho, summaryCycles_read hcls ha hx hy hb⟩
  | write value =>
    rw [ho] at hcls hmode
    obtain ⟨a, ha⟩ := memOperand_of_length hmode hl
    rw [Operation.meaning, onOperand_of_some ha]
    exact ⟨_, writeMem_completesIn h a value,
      count_of_fixed (c := .write) hd hcls rfl (by decide) (hl ▸ (summaryCycles_always ha).1.symm) bs s⟩
  | rmw o =>
    rw [ho] at hcls hmode
    by_cases hacc : row.mode = .accumulator
    · rw [Operation.meaning, if_pos hacc]
      exact ⟨1, impliedOp_completesIn h fun _ => rfl,
        count_of_fixed hd (hcls.trans (if_pos hacc)) hacc (by decide) (by rfl) bs s⟩
    · obtain ⟨a, ha⟩ := memOperand_of_length ((rmw_mode hmode).resolve_left hacc) hl
      have hmem : row.mode ∈ [.zeroPage, .zeroPageX, .absolute, .absoluteX] := by
        simpa [Operation.hasMode, hacc] using hmode
      rw [Operation.meaning, if_neg hacc, onOperand_of_some ha]
      exact ⟨_, modifyMem_completesIn h a o, count_of_fixed hd (hcls.trans (if_neg hacc)) rfl (by decide)
        (hl ▸ ((summaryCycles_always ha).2 hmem).symm) bs s⟩
  | implied o =>
    rw [ho] at hcls hmode
    exact ⟨1, impliedOp_completesIn h fun u => (impliedOperation_operated ho u).cycles,
      count_of_fixed (c := .implied) hd hcls (himplied hmode) (by decide) (by rfl) bs s⟩
  | branch cond =>
    rw [ho] at hcls hmode
    obtain hcls : row.cls = .branch := hcls
    obtain hrel : row.mode = .relative := by simpa [Operation.hasMode] using hmode
    rw [hrel] at hl
    obtain ⟨offset, rfl⟩ := List.length_eq_one_iff.1 hl
    rw [hlead (by simp [hcls])] at hpc ⊢
    obtain hpc : t.pc = s.pc + 2#16 := hpc
    refine ⟨_, branchIf_completesIn h cond offset, ?_⟩
    simp [hcls, summaryCycles, extraCycles, branchTaken_eq ho, hp, hpc]
  | push value =>
    rw [ho] at hcls hmode
    exact ⟨2, pushOp_completesIn h value,
      count_of_fixed (c := .push) hd hcls (himplied hmode) (by decide) (by rfl) bs s⟩
  | pull o =>
    rw [ho] at hcls hmode
    exact ⟨3, pullOp_completesIn h ho, count_of_fixed (c := .pull) hd hcls (himplied hmode) (by decide) (by rfl) bs s⟩
  | jump =>
    rw [ho] at hcls hmode
    obtain habs | hind : row.mode = .absolute ∨ row.mode = .absoluteIndirect := by
      simpa [Operation.hasMode] using hmode
    · rw [habs] at hl
      obtain ⟨lo, hi, rfl⟩ := List.length_eq_two.1 hl
      rw [Operation.meaning, if_pos habs]
      exact ⟨0, ⟨_, rfl, rfl, rfl⟩, count_of_fixed hd (hcls.trans (if_pos habs)) habs (by decide) (by rfl) _ s⟩
    · rw [hind] at hl
      obtain ⟨lo, hi, rfl⟩ := List.length_eq_two.1 hl
      have hne : row.mode ≠ .absolute := by simp [hind]
      rw [Operation.meaning, if_neg hne]
      exact ⟨2, execJmpInd_completesIn h _,
        count_of_fixed hd (hcls.trans (if_neg hne)) hind (by decide) (by rfl) _ s⟩
  | call =>
    rw [ho] at hcls
    obtain hcls : row.cls = .call := hcls
    rw [← format_operandBytes_eq_mode hd, operandBytes_of_call hd hcls] at hl
    obtain ⟨lo, hi, rfl⟩ := List.length_eq_two.1 hl
    refine ⟨4, execJsr_completesIn h _, ?_⟩
    rw [leadingFetches_of_call hcls, extraCycles_eq_zero (by simp [hcls]) (by simp [hcls]), hcls]
    rfl
  | ret =>
    rw [ho] at hcls hmode
    exact ⟨5, execRts_completesIn h, count_of_fixed (c := .ret) hd hcls (himplied hmode) (by decide) (by rfl) bs s⟩
  | rti =>
    rw [ho] at hcls hmode
    exact ⟨5, execRti_completesIn h, count_of_fixed (c := .rti) hd hcls (himplied hmode) (by decide) (by rfl) bs s⟩

/-- The step from a boundary on plain RAM, over the bytes of an instruction. -/
theorem step_eq_exec {i : Instr} {s : State} (hr : s.rst = false) (he : s.e = .fetchOpcode) (h : s.plainRam)
    (hs : s.holds s.pc (encode i)) : step s = exec i (s.fetched (Instr.fetchedBytes i)) :=
  stepRunsDecodedInstruction i s hr he hs (h.grantsAll_fetchCyclesAt _ _)

theorem length_fetchCyclesAt (a : Addr) (bs : List Byte) : (fetchCyclesAt a bs).length = bs.length := by
  induction bs generalizing a with
  | nil => rfl
  | cons b bs ih => rw [fetchCyclesAt, List.length_cons, List.length_cons, ih]

/-- Settles O50, by the fetches and by the meaning of the row on plain RAM. -/
theorem instructionCycleCounts : Obligations.InstructionCycleCounts := by
  refine ⟨fun i row s hrow hr he h hs => ?_, fun s hr he hread hd => ?_⟩
  · obtain ⟨operands, later, hfetched, hlead, -⟩ := fetchedBytes_eq_cons hrow
    have hlen : (Instr.fetchedBytes i).length = 1 + Row.leadingFetches row := by
      rw [hfetched, List.length_cons, hlead, Nat.add_comm]
    obtain ⟨-, htail, -⟩ := encodedBy_row hrow
    obtain ⟨n, ⟨t, ht, hte, htc⟩, hn⟩ := meaning_completesIn (s := s) (t := s.fetched (Instr.fetchedBytes i)) hrow
      (htail.trans (format_operandBytes_eq_mode hrow)) (h.of_regions rfl) rfl rfl rfl (fun _ => rfl)
      (by rw [← hlen]; rfl)
    refine ⟨t, ?_, hte, ?_⟩
    · rw [step_eq_exec hr he h hs, exec_eq_meaning hrow, ht]
    · have hcycles : (s.fetched (Instr.fetchedBytes i)).cycles = s.cycles + (1 + Row.leadingFetches row) := by
        rw [← hlen, ← length_fetchCyclesAt s.pc]
        rfl
      omega
  · have hf : fetchByte s = .ok (s.byteAt s.pc) (s.fetched [s.byteAt s.pc]) := fetchByte_granted rfl hread
    rw [step_fetchOpcode hr he, runInstr_of_undispatched hf hd]
    exact ⟨_, rfl, rfl⟩

end Sys2Proof.Machine
end

section
/-! PROOFS. On plain RAM a dummy access changes nothing: no sequence looks at the parameter INTERNAL_CYCLE_ACCESS or at
the bus history but to choose which cycle the bus sees (R99). Two runs that differ in the parameters and the history
alone are followed side by side. -/

namespace Sys2Proof.Machine

open Sys2Proof

/-- The state with other parameters and another bus history. -/
def State.seenAs (s : State) (p : Config.Params) (log : List BusCycle) : State :=
  { s with params := p, bus := { s.bus with log := log } }

/-- Two parts of sequences end alike: with the same value, in states on plain RAM that differ in the parameters and the
history alone. -/
inductive Flow.Alike {α : Type} : Flow α → Flow α → Prop
  | ok (v : α) {s : State} (h : s.plainRam) (p : Config.Params) (log : List BusCycle) :
    Alike (.ok v s) (.ok v (s.seenAs p log))
  | stopped (s : State) (p : Config.Params) (log : List BusCycle) : Alike (.stopped s) (.stopped (s.seenAs p log))

/-- Two answers are next states that differ in the parameters and the history alone. -/
def AnswersAlike (a b : Answer) : Prop :=
  ∃ (t : State) (p : Config.Params) (log : List BusCycle), a = .next t ∧ b = .next (t.seenAs p log)

theorem Flow.Alike.bind {α β : Type} {f g : Flow α} {k k' : α → State → Flow β} (hf : f.Alike g)
    (hk : ∀ v s p log, s.plainRam → (k v s).Alike (k' v (s.seenAs p log))) : (f.bind k).Alike (g.bind k') := by
  cases hf with
  | ok v h p log => exact hk v _ p log h
  | stopped s p log => exact .stopped s p log

theorem Flow.Alike.answer {f g : Flow Unit} (h : f.Alike g) : AnswersAlike f.answer g.answer := by
  cases h with
  | ok v h p log => exact ⟨_, p, log, rfl, rfl⟩
  | stopped s p log => exact ⟨s, p, log, rfl, rfl⟩

/-! ## Accesses -/

section Accesses

variable {s : State} (h : s.plainRam) (p : Config.Params) (log : List BusCycle)

include h

theorem busRead_alike (a : Addr) : (busRead a s).Alike (busRead a (s.seenAs p log)) := by
  have h' : (s.seenAs p log).plainRam := h.of_regions (by rfl)
  rw [busRead_granted (h.grants_readCycleAt a), busRead_granted (h'.grants_readCycleAt a)]
  exact .ok _ (h.of_regions (by rfl)) p _

theorem busWrite_alike (a : Addr) (v : Byte) : (busWrite a v s).Alike (busWrite a v (s.seenAs p log)) := by
  have h' : (s.seenAs p log).plainRam := h.of_regions (by rfl)
  rw [busWrite_granted (h.grants_write a v), busWrite_granted (h'.grants_write a v)]
  exact .ok () (h.of_regions (by rfl)) p _

/-- A dummy read and an idle cycle end alike: they differ in what the bus has seen. -/
theorem dummyRead_alike (a : Addr) : (dummyRead a s).Alike (dummyRead a (s.seenAs p log)) := by
  have h' : (s.seenAs p log).plainRam := h.of_regions (by rfl)
  rw [dummyRead_granted (h.grants_dummyCycle a), dummyRead_granted (h'.grants_dummyCycle a)]
  exact .ok () (h.of_regions (by rfl)) p _

theorem fetchByte_alike : (fetchByte s).Alike (fetchByte (s.seenAs p log)) :=
  (busRead_alike h p log s.pc).bind fun v _ p log h => .ok v (h.of_regions (by rfl)) p log

theorem fetchBytes_alike (n : Nat) : (fetchBytes n s).Alike (fetchBytes n (s.seenAs p log)) := by
  induction n generalizing s p log with
  | zero => exact .ok [] h p log
  | succ n ih =>
    exact (fetchByte_alike h p log).bind fun b _ p log h =>
      (ih h p log).bind fun bs _ p log h => .ok (b :: bs) h p log

theorem push_alike (v : Byte) : (push v s).Alike (push v (s.seenAs p log)) :=
  (busWrite_alike h p log _ v).bind fun _ _ p log h => .ok () (h.of_regions (by rfl)) p log

theorem pull_alike : (pull s).Alike (pull (s.seenAs p log)) :=
  (busRead_alike h p log _).bind fun v _ p log h => .ok v (h.of_regions (by rfl)) p log

theorem readPointer_alike (z : Byte) : (readPointer z s).Alike (readPointer z (s.seenAs p log)) :=
  (busRead_alike h p log _).bind fun _ _ p log h =>
    (busRead_alike h p log _).bind fun _ _ p log h => .ok _ h p log

theorem indexBase_alike (always : Bool) (base : Addr) (idx : Byte) :
    (indexBase always base idx s).Alike (indexBase always base idx (s.seenAs p log)) := by
  unfold indexBase
  split
  · exact (busRead_alike h p log _).bind fun _ _ p log h => .ok _ h p log
  · exact .ok _ h p log

/-- The address decoder ends alike. -/
theorem resolve_alike (always : Bool) (o : MemOperand) :
    (o.resolve always s).Alike (o.resolve always (s.seenAs p log)) := by
  cases o with
  | zp z => exact .ok _ h p log
  | abs a => exact .ok _ h p log
  | zpX z => exact (dummyRead_alike h p log _).bind fun _ _ p log h => .ok _ h p log
  | zpY z => exact (dummyRead_alike h p log _).bind fun _ _ p log h => .ok _ h p log
  | absX a => exact indexBase_alike h p log always a s.x
  | absY a => exact indexBase_alike h p log always a s.y
  | indX z => exact (dummyRead_alike h p log _).bind fun _ _ p log h => readPointer_alike h p log _
  | indY z => exact (readPointer_alike h p log z).bind fun _ _ p log h => indexBase_alike h p log always _ _

end Accesses

/-! ## Operations -/

theorem readOperation_seenAs {m : Mnemonic} {op : Byte → State → State} (ho : Mnemonic.operation m = .read op)
    (v : Byte) (s : State) (p : Config.Params) (log : List BusCycle) :
    op v (s.seenAs p log) = (op v s).seenAs p log := by
  cases m <;> cases ho <;> rfl

theorem impliedOperation_seenAs {m : Mnemonic} {op : State → State} (ho : Mnemonic.operation m = .implied op)
    (s : State) (p : Config.Params) (log : List BusCycle) : op (s.seenAs p log) = (op s).seenAs p log := by
  cases m <;> cases ho <;> rfl

theorem pullOperation_seenAs {m : Mnemonic} {op : Byte → State → State} (ho : Mnemonic.operation m = .pull op)
    (v : Byte) (s : State) (p : Config.Params) (log : List BusCycle) :
    op v (s.seenAs p log) = (op v s).seenAs p log := by
  cases m <;> cases ho <;> rfl

theorem writeOperation_seenAs {m : Mnemonic} {value : State → Byte} (ho : Mnemonic.operation m = .write value)
    (s : State) (p : Config.Params) (log : List BusCycle) : value (s.seenAs p log) = value s := by
  cases m <;> cases ho <;> rfl

theorem pushOperation_seenAs {m : Mnemonic} {value : State → Byte} (ho : Mnemonic.operation m = .push value)
    (s : State) (p : Config.Params) (log : List BusCycle) : value (s.seenAs p log) = value s := by
  cases m <;> cases ho <;> rfl

/-- An operation on the registers ends alike. -/
theorem operated_alike {row : Row} {s t : State} (ht : Operated row s t) (h : s.plainRam) (p : Config.Params)
    (log : List BusCycle) : (Flow.ok () t).Alike (.ok () (t.seenAs p log)) :=
  .ok () (h.of_regions (by rw [ht.bus])) p log

/-! ## Sequences -/

section Sequences

variable {s : State} {row : Row} (h : s.plainRam) (p : Config.Params) (log : List BusCycle)

/-! Bytes that are no operand of the sequence leave both states as they are. -/

theorem onByte_alike {k : Byte → State → Answer}
    (bs : List Byte) (hk : ∀ v, AnswersAlike (k v s) (k v (s.seenAs p log))) :
    AnswersAlike (onByte k bs s) (onByte k bs (s.seenAs p log)) := by
  unfold onByte
  split
  · exact hk _
  · exact ⟨s, p, log, rfl, rfl⟩

theorem onTarget_alike {k : Addr → State → Answer}
    (bs : List Byte) (hk : ∀ a, AnswersAlike (k a s) (k a (s.seenAs p log))) :
    AnswersAlike (onTarget k bs s) (onTarget k bs (s.seenAs p log)) := by
  unfold onTarget
  split
  · exact hk _
  · exact ⟨s, p, log, rfl, rfl⟩

theorem onOperand_alike {k : MemOperand → State → Answer} (m : Mode) (bs : List Byte)
    (hk : ∀ o, AnswersAlike (k o s) (k o (s.seenAs p log))) :
    AnswersAlike (onOperand m k bs s) (onOperand m k bs (s.seenAs p log)) := by
  unfold onOperand
  cases Mode.memOperand m bs with
  | some o => exact hk o
  | none => exact ⟨s, p, log, rfl, rfl⟩

include h

theorem readMem_alike (o : MemOperand) {op : Byte → State → State} (ho : Mnemonic.operation row.mnemonic = .read op) :
    AnswersAlike (readMem o op s) (readMem o op (s.seenAs p log)) :=
  Flow.Alike.answer ((resolve_alike h p log false o).bind fun _ _ p log h =>
    (busRead_alike h p log _).bind fun v s p log h => by
    rw [readOperation_seenAs ho]
    exact operated_alike (readOperation_operated ho v s) h p log)

theorem writeMem_alike (o : MemOperand) {value : State → Byte} (ho : Mnemonic.operation row.mnemonic = .write value) :
    AnswersAlike (writeMem o value s) (writeMem o value (s.seenAs p log)) :=
  Flow.Alike.answer ((resolve_alike h p log true o).bind fun _ _ p log h => by
    rw [writeOperation_seenAs ho]
    exact busWrite_alike h p log _ _)

theorem modifyMem_alike (o : MemOperand)
    (op : Byte → Flags → Byte × Flags) : AnswersAlike (modifyMem o op s) (modifyMem o op (s.seenAs p log)) :=
  Flow.Alike.answer ((resolve_alike h p log true o).bind fun _ _ p log h =>
    (busRead_alike h p log _).bind fun v _ p log h =>
    (busWrite_alike h p log _ v).bind fun _ s p log h =>
      busWrite_alike (s := s.setP (op v s.p).2) (h.of_regions (by rfl)) p log _ _)

theorem impliedOp_alike {op : State → State}
    (hop : ∀ s p log, op (State.seenAs s p log) = (op s).seenAs p log) (hbus : ∀ s, (op s).bus = s.bus) :
    AnswersAlike (impliedOp op s) (impliedOp op (s.seenAs p log)) :=
  Flow.Alike.answer ((dummyRead_alike h p log _).bind fun _ s p log h => by
    rw [hop]
    exact .ok () (h.of_regions (by rw [hbus])) p log)

theorem pushOp_alike {value : State → Byte} (ho : Mnemonic.operation row.mnemonic = .push value) :
    AnswersAlike (pushOp value s) (pushOp value (s.seenAs p log)) :=
  Flow.Alike.answer ((dummyRead_alike h p log _).bind fun _ _ p log h => by
    rw [pushOperation_seenAs ho]
    exact push_alike h p log _)

theorem pullOp_alike {op : Byte → State → State} (ho : Mnemonic.operation row.mnemonic = .pull op) :
    AnswersAlike (pullOp op s) (pullOp op (s.seenAs p log)) :=
  Flow.Alike.answer ((dummyRead_alike h p log _).bind fun _ _ p log h =>
    (dummyRead_alike h p log _).bind fun _ _ p log h =>
    (pull_alike h p log).bind fun v s p log h => by
      rw [pullOperation_seenAs ho]
      exact operated_alike (pullOperation_operated ho v s) h p log)

theorem branchIf_alike (cond : Flags → Bool) (offset : Byte) :
    AnswersAlike (branchIf cond offset s) (branchIf cond offset (s.seenAs p log)) := by
  show AnswersAlike (if cond s.p then _ else _) (if cond s.p then _ else _)
  split
  · refine (Flow.Alike.bind (dummyRead_alike h p log s.pc) fun _ t p log h => ?_).answer
    show Flow.Alike (if branchCrosses s.pc (branchTarget s.pc offset) then _ else _)
      (if branchCrosses s.pc (branchTarget s.pc offset) then _ else _)
    split
    · exact dummyRead_alike (s := t.setPc _) (h.of_regions (by rfl)) p log _
    · exact .ok () (h.of_regions (by rfl)) p log
  · exact (Flow.Alike.ok () h p log).answer

theorem execJmpInd_alike (ptr : Addr) : AnswersAlike (execJmpInd ptr s) (execJmpInd ptr (s.seenAs p log)) :=
  Flow.Alike.answer ((busRead_alike h p log _).bind fun _ _ p log h =>
    (busRead_alike h p log _).bind fun _ _ p log h =>
    .ok () (h.of_regions (by rfl)) p log)

theorem execJsr_alike (a : Addr) : AnswersAlike (execJsr a s) (execJsr a (s.seenAs p log)) :=
  Flow.Alike.answer ((dummyRead_alike h p log _).bind fun _ _ p log h =>
    (push_alike h p log _).bind fun _ _ p log h =>
    (push_alike h p log _).bind fun _ _ p log h => (busRead_alike h p log _).bind fun _ _ p log h =>
      .ok () (h.of_regions (by rfl)) p log)

theorem execRts_alike : AnswersAlike (execRts s) (execRts (s.seenAs p log)) :=
  Flow.Alike.answer ((dummyRead_alike h p log _).bind fun _ _ p log h =>
    (dummyRead_alike h p log _).bind fun _ _ p log h =>
    (pull_alike h p log).bind fun _ _ p log h => (pull_alike h p log).bind fun _ s p log h =>
      (dummyRead_alike (s := s.setPc _) (h.of_regions (by rfl)) p log _).bind fun _ _ p log h =>
        .ok () (h.of_regions (by rfl)) p log)

theorem execRti_alike : AnswersAlike (execRti s) (execRti (s.seenAs p log)) :=
  Flow.Alike.answer ((dummyRead_alike h p log _).bind fun _ _ p log h =>
    (dummyRead_alike h p log _).bind fun _ _ p log h =>
    (pull_alike h p log).bind fun _ s p log h =>
      (pull_alike (s := s.setP _) (h.of_regions (by rfl)) p log).bind fun _ _ p log h =>
        (pull_alike h p log).bind fun _ _ p log h => .ok () (h.of_regions (by rfl)) p log)

/-- The meaning of a row ends alike, at whatever bytes. -/
theorem meaning_alike (row : Row) (bs : List Byte) :
    AnswersAlike (Row.meaning row bs s) (Row.meaning row bs (s.seenAs p log)) := by
  unfold Row.meaning
  cases ho : Mnemonic.operation row.mnemonic with
  | read op =>
    by_cases himm : row.mode = .immediate
    · rw [Operation.meaning, if_pos himm]
      refine onByte_alike p log bs fun v => (?_ : Flow.Alike (.ok () _) (.ok () _)).answer
      rw [readOperation_seenAs ho]
      exact operated_alike (readOperation_operated ho v s) h p log
    · rw [Operation.meaning, if_neg himm]
      exact onOperand_alike p log row.mode bs fun o => readMem_alike h p log o ho
  | write value => exact onOperand_alike p log row.mode bs fun o => writeMem_alike h p log o ho
  | rmw op =>
    by_cases hacc : row.mode = .accumulator
    · rw [Operation.meaning, if_pos hacc]
      exact impliedOp_alike h p log (fun _ _ _ => rfl) fun _ => rfl
    · rw [Operation.meaning, if_neg hacc]
      exact onOperand_alike p log row.mode bs fun o => modifyMem_alike h p log o op
  | implied op =>
    exact impliedOp_alike h p log (impliedOperation_seenAs ho) fun s => (impliedOperation_operated ho s).bus
  | branch cond => exact onByte_alike p log bs fun offset => branchIf_alike h p log cond offset
  | push value => exact pushOp_alike h p log ho
  | pull op => exact pullOp_alike h p log ho
  | jump =>
    by_cases habs : row.mode = .absolute
    · rw [Operation.meaning, if_pos habs]
      exact onTarget_alike p log bs fun a => (Flow.Alike.ok () (h.of_regions (by rfl)) p log).answer
    · rw [Operation.meaning, if_neg habs]
      exact onTarget_alike p log bs fun a => execJmpInd_alike h p log a
  | call => exact onTarget_alike p log bs fun a => execJsr_alike h p log a
  | ret => exact execRts_alike h p log
  | rti => exact execRti_alike h p log

end Sequences

/-! ## Steps -/

theorem Flow.Alike.andThen {α : Type} {f g : Flow α} {k : α → State → Answer} (hf : f.Alike g)
    (hk : ∀ v s p log, s.plainRam → AnswersAlike (k v s) (k v (s.seenAs p log))) :
    AnswersAlike (f.andThen k) (g.andThen k) := by
  cases hf with
  | ok v h p log => exact hk v _ p log h
  | stopped s p log => exact ⟨s, p, log, rfl, rfl⟩

/-- A step is the opcode fetch and, for an opcode of the table, its operand fetches and the meaning of its row. -/
theorem runInstr_eq (s : State) : runInstr s = (fetchByte s).andThen fun op t => match dispatch op with
    | none => .next (takeFatal (.unknownOpcode op) t)
    | some row => (fetchBytes (Row.leadingFetches row) t).andThen fun bs t =>
        Row.meaning row (bs ++ laterBytes (row.format.operandBytes - Row.leadingFetches row) t) t := by
  cases hf : fetchByte s with
  | stopped t => rw [runInstr, fetchInstr, hf, Flow.bind_stopped, Flow.andThen]
  | ok op t =>
    rw [Flow.andThen_ok]
    cases hd : dispatch op with
    | none => exact runInstr_of_undispatched hf hd
    | some row => exact runInstr_of_dispatched hf hd

theorem runInstr_alike {s : State} (h : s.plainRam) (p : Config.Params) (log : List BusCycle) :
    AnswersAlike (runInstr s) (runInstr (s.seenAs p log)) := by
  rw [runInstr_eq, runInstr_eq]
  refine (fetchByte_alike h p log).andThen fun op t p log h => ?_
  cases dispatch op with
  | none => exact ⟨_, p, log, rfl, rfl⟩
  | some row => exact (fetchBytes_alike h p log _).andThen fun bs u p log h => meaning_alike h p log row _

/-- Settles O51, by following the two steps side by side. -/
theorem dummyAccessesChangeNothing : Obligations.DummyAccessesChangeNothing := by
  intro s hr he h
  obtain ⟨t, p, log, ht, hu⟩ := runInstr_alike
    (s := s.seenAs { s.params with internalAccess := .nmosDummyRead } s.bus.log) (h.of_regions (by rfl))
    { s.params with internalAccess := .noAccess } s.bus.log
  refine ⟨t, t.seenAs p log, ?_, ?_, rfl, rfl, rfl, rfl, rfl, rfl, rfl, rfl, rfl⟩
  · exact (step_fetchOpcode (by exact hr) (by exact he)).trans ht
  · exact (step_fetchOpcode (by exact hr) (by exact he)).trans hu

end Sys2Proof.Machine
end

section
/-! PROOFS. The ALU instructions when their accesses are granted (R120 to R139): the forms of each read and each
read-modify-write instruction with the operation they run, and the results that follow from the sequence of each. -/

namespace Sys2Proof.Machine

open Sys2Proof

/-! ## The forms of an instruction -/

/-- The read sequence at a read operand: none is left of an immediate byte's (R101), the operand byte of a memory
operand is read (R102 to R107). -/
def readOperand (op : Byte → State → State) : ReadOperand → State → Answer
  | .imm v => readImm v op
  | .mem o => readMem o op

theorem readOperand_granted {op : Byte → State → State} {o : ReadOperand} {s : State} (h : s.grantsAll (o.cycles s)) :
    readOperand op o s = .next (op (o.value s) (s.after (o.cycles s))).complete := by
  cases o with
  | imm v => rfl
  | mem o => exact readMem_granted h

/-- The table of a read instruction's forms, with the operation of the instruction (R121, R122, R127 to R129, R136 to
R139, R161 to R163). -/
inductive ReadForm : (ReadOperand → Option (Byte × Instr)) → (Byte → State → State) → Prop
  | lda : ReadForm ldaForm opLda
  | ldx : ReadForm ldxForm opLdx
  | ldy : ReadForm ldyForm opLdy
  | adc : ReadForm adcForm opAdc
  | sbc : ReadForm sbcForm opSbc
  | and : ReadForm andForm opAnd
  | ora : ReadForm oraForm opOra
  | eor : ReadForm eorForm opEor
  | bit : ReadForm bitForm opBit
  | cmp : ReadForm cmpForm opCmp
  | cpx : ReadForm cpxForm opCpx
  | cpy : ReadForm cpyForm opCpy

/-- Every form has its opcode and runs the read sequence at its operand. -/
theorem ReadForm.runs {form : ReadOperand → Option (Byte × Instr)} {f : Byte → State → State} (hf : ReadForm form f)
    {o : ReadOperand} {op : Byte} {i : Instr} (ho : form o = some (op, i)) :
    i.opcode = op ∧ exec i = readOperand f o := by
  cases o with
  | imm v => cases hf <;> cases ho <;> exact ⟨rfl, rfl⟩
  | mem o => cases hf <;> cases o <;> cases ho <;> exact ⟨rfl, rfl⟩

theorem ReadForm.exec_granted {form : ReadOperand → Option (Byte × Instr)} {f : Byte → State → State}
    (hf : ReadForm form f) {o : ReadOperand} {op : Byte} {i : Instr} {s : State} (ho : form o = some (op, i))
    (hg : s.grantsAll (o.cycles s)) :
    i.opcode = op ∧ exec i s = .next (f (o.value s) (s.after (o.cycles s))).complete := by
  obtain ⟨hop, hexec⟩ := hf.runs ho
  exact ⟨hop, by rw [hexec, readOperand_granted hg]⟩

/-- The table of a read-modify-write instruction's memory forms, with the operation of the instruction (R123 to R126,
R130, R131). -/
inductive ModifyForm : (MemOperand → Option (Byte × Instr)) → (Byte → Flags → Byte × Flags) → Prop
  | asl : ModifyForm aslForm asl
  | lsr : ModifyForm lsrForm lsr
  | rol : ModifyForm rolForm rol
  | ror : ModifyForm rorForm ror
  | inc : ModifyForm incForm inc
  | dec : ModifyForm decForm dec

/-- Every form has its opcode and runs the read-modify-write sequence at its operand. -/
theorem ModifyForm.runs {form : MemOperand → Option (Byte × Instr)} {f : Byte → Flags → Byte × Flags}
    (hf : ModifyForm form f) {o : MemOperand} {op : Byte} {i : Instr} (ho : form o = some (op, i)) :
    i.opcode = op ∧ exec i = modifyMem o f := by
  cases hf <;> cases o <;> cases ho <;> exact ⟨rfl, rfl⟩

theorem ModifyForm.exec_granted {form : MemOperand → Option (Byte × Instr)} {f : Byte → Flags → Byte × Flags}
    (hf : ModifyForm form f) {o : MemOperand} {op : Byte} {i : Instr} {s : State} (hw : s.bus.mem.wf = true)
    (ho : form o = some (op, i))
    (hg : s.grantsAll (o.modifyCycles (f (s.byteAt (o.effectiveAddress s)) s.p).1 s)) :
    i.opcode = op ∧ exec i s = .next ((((s.after
      (o.modifyCycles (f (s.byteAt (o.effectiveAddress s)) s.p).1 s)).setMem
        (s.bus.mem.write (o.effectiveAddress s).toNat (f (s.byteAt (o.effectiveAddress s)) s.p).1)).setP
          (f (s.byteAt (o.effectiveAddress s)) s.p).2)).complete := by
  obtain ⟨hop, hexec⟩ := hf.runs ho
  exact ⟨hop, by rw [hexec, modifyMem_granted hw hg]⟩

/-! ## The results of the operations -/

theorem flagNat_le_one (f : Bool) : flagNat f ≤ 1 := by
  cases f <;> decide

theorem flagNat_not (f : Bool) : flagNat (!f) = 1 - flagNat f := by
  cases f <;> rfl

theorem flagNat_decide (P : Prop) [Decidable P] : flagNat (decide P) = if P then 1 else 0 := by
  simp [flagNat]

theorem intCast_flagNat (f : Bool) : (flagNat f : Int) = if f then 1 else 0 := by
  cases f <;> rfl

theorem intCast_borrow (f : Bool) : 1 - (flagNat f : Int) = if f then 0 else 1 := by
  cases f <;> rfl

theorem byte_ofNat_mod (n : Nat) : BitVec.ofNat 8 (n % 256) = BitVec.ofNat 8 n :=
  BitVec.eq_of_toNat_eq (by simp)

theorem byte_ofInt_mod (d : Int) : BitVec.ofInt 8 (d % 256) = BitVec.ofInt 8 d :=
  BitVec.eq_of_toNat_eq (by simp)

theorem adc_toNat (a m : Byte) (p : Flags) : (adc a m p).1.toNat = adcSum a m p.c % 256 := by
  simp [adc]

theorem sbc_toNat (a m : Byte) (p : Flags) : ((sbc a m p).1.toNat : Int) = sbcDiff a m p.c % 256 := by
  simp only [sbc, BitVec.toNat_ofInt]
  omega

/-- R122's second expression of the result: `A` plus the complement of `M` plus `C`. -/
theorem sbc_eq_add_not (a m : Byte) (p : Flags) :
    (sbc a m p).1 = BitVec.ofNat 8 (a.toNat + (~~~m).toNat + flagNat p.c) := by
  apply BitVec.eq_of_toNat_eq
  have hm := m.isLt
  have hr := sbc_toNat a m p
  rw [BitVec.toNat_ofNat, BitVec.toNat_not]
  simp only [sbcDiff] at hr
  omega

/-! ## The results of the instructions

The statements write out what the operations compute (`Flags.withNZ` is `setNZ`, the numeral of a carry is `flagNat`), so
each result is that of the sequence, by unfolding the operation. -/

/-- Settles O24, by the read sequence with the operation of ADC. -/
theorem adcResult : Obligations.AdcResult := by
  intro o op i s ho hg
  simp only [byte_ofNat_mod]
  exact ReadForm.adc.exec_granted ho hg

/-- Settles O25, by the read sequence with the operation of SBC and its result as a sum with the complement. -/
theorem sbcResult : Obligations.SbcResult := by
  intro o op i s ho hg
  obtain ⟨hop, hexec⟩ := ReadForm.sbc.exec_granted ho hg
  simp only [byte_ofInt_mod, ← intCast_flagNat]
  exact ⟨hop, sbc_eq_add_not s.a (o.value s) s.p, hexec⟩

/-- Settles O26, by the read sequence with the operation of each. -/
theorem logicResults : Obligations.LogicResults := by
  intro o op i s hg
  exact ⟨fun ho => ReadForm.and.exec_granted ho hg, fun ho => ReadForm.ora.exec_granted ho hg,
    fun ho => ReadForm.eor.exec_granted ho hg⟩

/-- Settles O27, by the read sequence with the operation of BIT. -/
theorem bitResult : Obligations.BitResult := by
  intro o op i s ho hg
  exact ReadForm.bit.exec_granted ho hg

/-- Settles O28, by the read sequence with the operation of each. -/
theorem compareResults : Obligations.CompareResults := by
  intro o op i s hg
  exact ⟨fun ho => ReadForm.cmp.exec_granted ho hg, fun ho => ReadForm.cpx.exec_granted ho hg,
    fun ho => ReadForm.cpy.exec_granted ho hg⟩

/-- Settles O29, by the read-modify-write sequence and the accumulator's. -/
theorem shiftResults : Obligations.ShiftResults := by
  refine ⟨fun o op i s hw => ?_, fun s hg => ⟨rfl, rfl, impliedOp_granted hg, impliedOp_granted hg⟩⟩
  exact ⟨fun ho hg => ModifyForm.asl.exec_granted hw ho hg, fun ho hg => ModifyForm.lsr.exec_granted hw ho hg⟩

/-- Settles O30, by the read-modify-write sequence and the accumulator's. -/
theorem rotateResults : Obligations.RotateResults := by
  refine ⟨fun o op i s hw => ?_, fun s hg => ⟨rfl, rfl, impliedOp_granted hg, impliedOp_granted hg⟩⟩
  exact ⟨fun ho hg => ModifyForm.rol.exec_granted hw ho hg, fun ho hg => ModifyForm.ror.exec_granted hw ho hg⟩

/-- Settles O31, by the read-modify-write sequence. -/
theorem memoryIncDecResults : Obligations.MemoryIncDecResults := by
  intro o op i s hw
  exact ⟨fun ho hg => ModifyForm.inc.exec_granted hw ho hg, fun ho hg => ModifyForm.dec.exec_granted hw ho hg⟩

/-- Settles O32, by the implied sequence with the operation of each. -/
theorem indexIncDecResults : Obligations.IndexIncDecResults := by
  intro s hg
  exact ⟨⟨rfl, impliedOp_granted hg⟩, ⟨rfl, impliedOp_granted hg⟩, ⟨rfl, impliedOp_granted hg⟩,
    ⟨rfl, impliedOp_granted hg⟩⟩

end Sys2Proof.Machine
end

section
/-! PROOFS. The laws of ADC and SBC (R120, R140, R141): SBC takes back what ADC added, V is the signed overflow, and the
decimal flag is not looked at. -/

namespace Sys2Proof.Machine

open Sys2Proof

/-! ## ADC and SBC undo each other (R141) -/

theorem adc_carry (a m : Byte) (p : Flags) : (adc a m p).2.c = decide (adcSum a m p.c > 255) := rfl

theorem sbc_carry (a m : Byte) (p : Flags) : (sbc a m p).2.c = decide (sbcDiff a m p.c ≥ 0) := rfl

/-- ADC's carry is bit 8 of the sum. -/
theorem flagNat_adc_carry (a m : Byte) (p : Flags) : flagNat (adc a m p).2.c = adcSum a m p.c / 256 := by
  have ha := a.isLt
  have hm := m.isLt
  have hc := flagNat_le_one p.c
  rw [adc_carry, flagNat_decide, adcSum]
  split <;> omega

/-- Taking the operand and the complemented carry from ADC's result leaves `A`, less what ADC carried out. -/
theorem sbcDiff_adc (a b : Byte) (p : Flags) :
    sbcDiff (adc a b p).1 b (!p.c) = (a.toNat : Int) - 256 * flagNat (adc a b p).2.c := by
  have hc := flagNat_le_one p.c
  rw [sbcDiff, adc_toNat, flagNat_not, flagNat_adc_carry, adcSum]
  omega

theorem sbc_adc_result (a b : Byte) {p q : Flags} (hq : q.c = !p.c) : (sbc (adc a b p).1 b q).1 = a := by
  apply BitVec.eq_of_toNat_eq
  have ha := a.isLt
  have hr := sbc_toNat (adc a b p).1 b q
  rw [hq, sbcDiff_adc] at hr
  omega

theorem sbc_adc_carry (a b : Byte) {p q : Flags} (hq : q.c = !p.c) :
    (sbc (adc a b p).1 b q).2.c = !(adc a b p).2.c := by
  have ha := a.isLt
  have hset : flagNat true = 1 := rfl
  have hclear : flagNat false = 0 := rfl
  rw [sbc_carry, hq, sbcDiff_adc]
  cases (adc a b p).2.c with
  | false => exact decide_eq_true (by omega)
  | true => exact decide_eq_false (by omega)

/-- Settles O54, by the difference that SBC computes from ADC's result. -/
theorem inverseLaw : Obligations.InverseLaw := by
  intro s b
  exact ⟨_, _, rfl, rfl, sbc_adc_result s.a b rfl, sbc_adc_carry s.a b rfl⟩

/-! ## V is the signed overflow (R140) -/

theorem and_signBit_ne_zero_iff (x : Byte) : x &&& 0x80#8 ≠ 0#8 ↔ x.msb = true := by
  revert x; decide

/-- The exclusive or of two bytes has its sign bit where their signs differ. -/
theorem xor_msb_iff (x y : Byte) : (x ^^^ y).msb = true ↔ ¬(x.toInt < 0 ↔ y.toInt < 0) := by
  rw [BitVec.msb_xor, BitVec.msb_eq_toInt, BitVec.msb_eq_toInt]
  simp

/-- A byte's signed value, and its unsigned value from it. -/
theorem toInt_range_mod (x : Byte) : -128 ≤ x.toInt ∧ x.toInt ≤ 127 ∧ (x.toNat : Int) = x.toInt % 256 := by
  have hx := x.isLt
  rw [BitVec.toInt_eq_toNat_cond]
  split <;> omega

/-- ADC's V: the operands have one sign and the result has the other. -/
theorem adc_overflow_iff (a m : Byte) (p : Flags) :
    (adc a m p).2.v = true ↔ a.toInt + m.toInt + flagNat p.c < -128 ∨ 127 < a.toInt + m.toInt + flagNat p.c := by
  have hr := adc_toNat a m p
  have hv : (adc a m p).2.v = decide ((a ^^^ (adc a m p).1) &&& (m ^^^ (adc a m p).1) &&& 0x80#8 ≠ 0#8) := rfl
  rw [hv, decide_eq_true_iff, and_signBit_ne_zero_iff, BitVec.msb_and, Bool.and_eq_true, xor_msb_iff, xor_msb_iff]
  generalize (adc a m p).1 = r at *
  have ha := toInt_range_mod a
  have hm := toInt_range_mod m
  have hsigned := toInt_range_mod r
  have hc := flagNat_le_one p.c
  rw [adcSum] at hr
  omega

/-- SBC's V: the operands have different signs and the result has not the sign of `A`. -/
theorem sbc_overflow_iff (a m : Byte) (p : Flags) :
    (sbc a m p).2.v = true ↔ a.toInt - m.toInt - (1 - flagNat p.c) < -128 ∨
      127 < a.toInt - m.toInt - (1 - flagNat p.c) := by
  have hr := sbc_toNat a m p
  have hv : (sbc a m p).2.v = decide ((a ^^^ (sbc a m p).1) &&& (a ^^^ m) &&& 0x80#8 ≠ 0#8) := rfl
  rw [hv, decide_eq_true_iff, and_signBit_ne_zero_iff, BitVec.msb_and, Bool.and_eq_true, xor_msb_iff, xor_msb_iff]
  generalize (sbc a m p).1 = r at *
  have ha := toInt_range_mod a
  have hm := toInt_range_mod m
  have hsigned := toInt_range_mod r
  have hc := flagNat_le_one p.c
  rw [sbcDiff] at hr
  omega

/-- Settles O55, by V's formula read as signs. -/
theorem overflowIsSigned : Obligations.OverflowIsSigned := by
  intro s m
  refine ⟨_, _, rfl, rfl, ?_, ?_⟩
  · rw [← intCast_flagNat]
    exact adc_overflow_iff s.a m s.p
  · rw [← intCast_borrow]
    exact sbc_overflow_iff s.a m s.p

/-! ## The decimal flag is not looked at (R120) -/

/-- The state with another decimal flag. -/
def State.withDecimal (d : Bool) (s : State) : State := s.setP { s.p with d := d }

/-- A part of a sequence with another decimal flag, however it ends. -/
def Flow.withDecimal {α : Type} (d : Bool) : Flow α → Flow α
  | .ok v s => .ok v (s.withDecimal d)
  | .stopped s => .stopped (s.withDecimal d)

theorem Flow.withDecimal_bind {α β : Type} {f g : Flow α} {d : Bool} {k k' : α → State → Flow β}
    (hf : g = f.withDecimal d) (hk : ∀ v s, k' v (s.withDecimal d) = (k v s).withDecimal d) :
    g.bind k' = (f.bind k).withDecimal d := by
  subst hf
  cases f with
  | ok v s => exact hk v s
  | stopped s => rfl

section Decimal

variable (d : Bool) (s : State)

@[simp] theorem State.withDecimal_bus : (s.withDecimal d).bus = s.bus := rfl
@[simp] theorem State.withDecimal_params : (s.withDecimal d).params = s.params := rfl

theorem busRead_withDecimal (a : Addr) : busRead a (s.withDecimal d) = (busRead a s).withDecimal d := by
  unfold busRead
  rw [State.withDecimal_bus]
  cases s.bus.readAnswer a <;> rfl

theorem dummyRead_withDecimal (a : Addr) : dummyRead a (s.withDecimal d) = (dummyRead a s).withDecimal d := by
  unfold dummyRead
  rw [State.withDecimal_params]
  cases s.params.internalAccess with
  | nmosDummyRead => exact Flow.withDecimal_bind (busRead_withDecimal d s a) fun _ _ => rfl
  | noAccess => rfl

theorem readPointer_withDecimal (z : Byte) : readPointer z (s.withDecimal d) = (readPointer z s).withDecimal d :=
  Flow.withDecimal_bind (busRead_withDecimal d s _) fun _ s =>
    Flow.withDecimal_bind (busRead_withDecimal d s _) fun _ _ => rfl

theorem indexBase_withDecimal (always : Bool) (base : Addr) (idx : Byte) :
    indexBase always base idx (s.withDecimal d) = (indexBase always base idx s).withDecimal d := by
  unfold indexBase
  split
  · exact Flow.withDecimal_bind (busRead_withDecimal d s _) fun _ _ => rfl
  · rfl

theorem resolve_withDecimal (always : Bool) (o : MemOperand) :
    o.resolve always (s.withDecimal d) = (o.resolve always s).withDecimal d := by
  cases o with
  | zp z | abs a => rfl
  | zpX z | zpY z => exact Flow.withDecimal_bind (dummyRead_withDecimal d s _) fun _ _ => rfl
  | absX a | absY a => exact indexBase_withDecimal d s always a _
  | indX z => exact Flow.withDecimal_bind (dummyRead_withDecimal d s _) fun _ s => readPointer_withDecimal d s _
  | indY z => exact Flow.withDecimal_bind (readPointer_withDecimal d s z) fun _ s => indexBase_withDecimal d s always _ _

end Decimal

/-- A meaning does not look at the decimal flag: run with another one, it gives the same next state but for that flag. -/
def DecimalBlind (meaning : State → Answer) : Prop :=
  ∀ d s t, meaning s = .next t → meaning (s.withDecimal d) = .next (t.withDecimal d)

/-- An operation on the registers does not look at the decimal flag and keeps it. -/
def KeepsDecimal (op : Byte → State → State) : Prop :=
  ∀ d v s, op v (s.withDecimal d) = (op v s).withDecimal d

theorem DecimalBlind.next : DecimalBlind .next := by
  intro d s t h
  cases h
  rfl

theorem DecimalBlind.onByte {k : Byte → State → Answer} (bs : List Byte) (hk : ∀ v, DecimalBlind (k v)) :
    DecimalBlind (Machine.onByte k bs) := by
  unfold Machine.onByte
  split
  · exact hk _
  · exact .next

theorem DecimalBlind.onOperand {k : MemOperand → State → Answer} (m : Mode) (bs : List Byte)
    (hk : ∀ o, DecimalBlind (k o)) : DecimalBlind (Machine.onOperand m k bs) := by
  unfold Machine.onOperand
  split
  · exact hk _
  · exact .next

theorem Flow.answer_withDecimal {f g : Flow Unit} {d : Bool} {t : State} (hg : g = f.withDecimal d)
    (h : f.answer = .next t) : g.answer = .next (t.withDecimal d) := by
  subst hg
  cases f <;> cases h <;> rfl

theorem KeepsDecimal.flow {op : Byte → State → State} (hop : KeepsDecimal op) (d : Bool) (v : Byte) (s : State) :
    Flow.ok () (op v (s.withDecimal d)) = (Flow.ok () (op v s)).withDecimal d :=
  congrArg (Flow.ok ()) (hop d v s)

theorem readImm_decimalBlind {op : Byte → State → State} (hop : KeepsDecimal op) (v : Byte) :
    DecimalBlind (readImm v op) := fun d s _ h =>
  Flow.answer_withDecimal (hop.flow d v s) h

theorem readMem_decimalBlind {op : Byte → State → State} (hop : KeepsDecimal op) (o : MemOperand) :
    DecimalBlind (readMem o op) := fun d s _ h =>
  Flow.answer_withDecimal (Flow.withDecimal_bind (resolve_withDecimal d s false o) fun ea s =>
    Flow.withDecimal_bind (busRead_withDecimal d s ea) fun v s => hop.flow d v s) h

/-- The read sequence in any mode. -/
theorem readMeaning_decimalBlind {op : Byte → State → State} (hop : KeepsDecimal op) (m : Mode) (bs : List Byte) :
    DecimalBlind ((Operation.read op).meaning m bs) := by
  rw [Operation.meaning]
  split
  · exact .onByte bs (readImm_decimalBlind hop)
  · exact .onOperand m bs (readMem_decimalBlind hop)

theorem opAdc_keepsDecimal : KeepsDecimal opAdc := fun _ _ _ => rfl

theorem opSbc_keepsDecimal : KeepsDecimal opSbc := fun _ _ _ => rfl

/-- Settles O56: the read sequence does not look at the flag, nor do the operations of ADC and SBC. -/
theorem decimalFlagIgnored : Obligations.DecimalFlagIgnored := by
  intro i row s t d hr hm h
  have hblind : DecimalBlind (exec i) := by
    rw [exec_eq_meaning hr, Row.meaning]
    rcases hm with hm | hm <;> rw [hm]
    · exact readMeaning_decimalBlind opAdc_keepsDecimal row.mode _
    · exact readMeaning_decimalBlind opSbc_keepsDecimal row.mode _
  exact hblind d s t h

end Sys2Proof.Machine
end

section
/-! PROOFS. The loads, the stores and the transfers when their accesses are granted (R161 to R172): a load is a read
instruction and a transfer an implied one; the forms of each store are tabled here with the byte it stores. -/

namespace Sys2Proof.Machine

open Sys2Proof

/-! ## The forms of a store -/

/-- The table of a store's forms, with the byte the instruction stores (R164 to R166). -/
inductive StoreForm : (MemOperand → Option (Byte × Instr)) → (State → Byte) → Prop
  | sta : StoreForm staForm valueSta
  | stx : StoreForm stxForm valueStx
  | sty : StoreForm styForm valueSty

section Stores

variable {form : MemOperand → Option (Byte × Instr)} {value : State → Byte}

/-- Every form has its opcode and runs the write sequence at its operand. -/
theorem StoreForm.runs (hf : StoreForm form value) {o : MemOperand} {op : Byte} {i : Instr}
    (ho : form o = some (op, i)) : i.opcode = op ∧ exec i = writeMem o value := by
  cases hf <;> cases o <;> cases ho <;> exact ⟨rfl, rfl⟩

/-- The byte is a register's, so the cycles before the write do not change it. -/
theorem StoreForm.value_after (hf : StoreForm form value) (s : State) (cs : List BusCycle) :
    value (s.after cs) = value s := by
  cases hf <;> rfl

theorem StoreForm.exec_granted (hf : StoreForm form value) {o : MemOperand} {op : Byte} {i : Instr} {s : State}
    (ho : form o = some (op, i)) (hg : s.grantsAll (o.storeCycles (value s) s)) :
    i.opcode = op ∧ exec i s = .next ((s.after (o.storeCycles (value s) s)).setMem
      (s.bus.mem.write (o.effectiveAddress s).toNat (value s))).complete := by
  obtain ⟨hop, hexec⟩ := hf.runs ho
  exact ⟨hop, by rw [hexec, writeMem_granted (hf.value_after s _) hg]⟩

end Stores

/-! ## The results of the instructions

As for the ALU, the statements write out the record that the register's update and the end of the instruction give, so
each result is that of the sequence, by unfolding the operation. -/

/-- Settles O22, by the read sequence with the operation of each. -/
theorem loadResults : Obligations.LoadResults := by
  intro o op i s hg
  exact ⟨fun ho => ReadForm.lda.exec_granted ho hg, fun ho => ReadForm.ldx.exec_granted ho hg,
    fun ho => ReadForm.ldy.exec_granted ho hg⟩

/-- Settles O23, by the write sequence with the register each instruction stores. -/
theorem storeResults : Obligations.StoreResults := by
  intro o op i s
  exact ⟨fun ho hg => StoreForm.sta.exec_granted ho hg, fun ho hg => StoreForm.stx.exec_granted ho hg,
    fun ho hg => StoreForm.sty.exec_granted ho hg⟩

/-- Settles O33, by the implied sequence with the operation of each. -/
theorem transferResults : Obligations.TransferResults := by
  intro s hg
  exact ⟨⟨rfl, impliedOp_granted hg⟩, ⟨rfl, impliedOp_granted hg⟩, ⟨rfl, impliedOp_granted hg⟩,
    ⟨rfl, impliedOp_granted hg⟩, ⟨rfl, impliedOp_granted hg⟩, ⟨rfl, impliedOp_granted hg⟩⟩

end Sys2Proof.Machine
end

section
/-! PROOFS. A return takes back what a call pushed (R182, R183, R194). -/

namespace Sys2Proof.Machine

open Sys2Proof

/-! ## The bytes a call pushed -/

theorem stackAddr_inj {p q : Byte} : stackAddr p = stackAddr q ↔ p = q := by
  refine ⟨fun h => ?_, congrArg stackAddr⟩
  rw [stackAddr_eq, stackAddr_eq] at h
  simpa using congrArg loByte h

theorem callMemory_read_high {s : State} (hw : s.bus.mem.wf = true) :
    (callMemory s).read (stackAddr s.sp).toNat = hiByte s.pc := by
  have hne : stackAddr s.sp ≠ stackAddr (s.sp - 1#8) := by
    rw [Ne, stackAddr_inj]
    bv_omega
  unfold callMemory
  rw [Memory.read_write_other _ _ fun h => hne (BitVec.eq_of_toNat_eq h), Memory.read_write_same _ _ _ hw]

theorem callMemory_read_low {s : State} (hw : s.bus.mem.wf = true) :
    (callMemory s).read (stackAddr (s.sp - 1#8)).toNat = loByte s.pc :=
  Memory.read_write_same _ _ _ (Memory.write_wf _ _ _ hw)

/-- With the memory and `SP` as the call left them, a return pulls the address the call pushed. -/
theorem pulledAddr_of_call {s t : State} (hw : s.bus.mem.wf = true) (hm : t.bus.mem = callMemory s)
    (hsp : t.sp = s.sp - 2#8) : pulledAddr t = s.pc := by
  have hhigh : t.byteAt (stackAddr (t.sp + 2#8)) = hiByte s.pc := by
    rw [hsp, BitVec.sub_add_cancel, State.byteAt, Bus.peek, hm, callMemory_read_high hw]
  have hlow : t.byteAt (stackAddr (t.sp + 1#8)) = loByte s.pc := by
    have hfirst : s.sp - 2#8 + 1#8 = s.sp - 1#8 := by bv_omega
    rw [hsp, hfirst, State.byteAt, Bus.peek, hm, callMemory_read_low hw]
  rw [pulledAddr, hhigh, hlow, joinBytes_hi_lo]

/-! ## Call and return on plain RAM -/

theorem State.plainRam.grantsAll_call {s : State} (h : s.plainRam) (v : Byte) :
    s.grantsAll (callCycles s ++ [.read s.pc v]) := by
  simp [callCycles, State.grantsAll_cons, State.grantsAll_nil, h.grants_dummyCycle, h.grants_write, h.grants_read]

theorem State.plainRam.grantsAll_return {s : State} (h : s.plainRam) :
    s.grantsAll (returnCycles s ++ [s.dummyCycle (pulledAddr s)]) := by
  simp [returnCycles, State.grantsAll_cons, State.grantsAll_nil, h.grants_dummyCycle, h.grants_readCycleAt]

/-- `t` is `s` after a call (R182), but for `PC`, the executor state and the cycles: a return may start anywhere. -/
structure CalledFrom (s t : State) : Prop where
  a : t.a = s.a
  x : t.x = s.x
  y : t.y = s.y
  p : t.p = s.p
  sp : t.sp = s.sp - 2#8
  mem : t.bus.mem = callMemory s
  regions : t.bus.regions = s.bus.regions

theorem execJsr_calledFrom {s : State} (h : s.plainRam) (target : Addr) :
    ∃ t, execJsr target s = .next t ∧ t.e = .fetchOpcode ∧ CalledFrom s t :=
  ⟨_, execJsr_granted (h.grantsAll_call _), rfl, ⟨rfl, rfl, rfl, rfl, rfl, rfl, rfl⟩⟩

theorem CalledFrom.setPc {s t : State} (h : CalledFrom s t) (q : Addr) : CalledFrom s (t.setPc q) := { h with }

theorem execRts_of_calledFrom {s t : State} (h : s.plainRam) (hw : s.bus.mem.wf = true) (ht : CalledFrom s t) :
    ∃ u, execRts t = .next u ∧ u.e = .fetchOpcode ∧ u.pc = s.pc + 1#16 ∧ u.sp = s.sp ∧
      u.a = s.a ∧ u.x = s.x ∧ u.y = s.y ∧ u.p = s.p := by
  have hpc : pulledAddr t = s.pc := pulledAddr_of_call hw ht.mem ht.sp
  have hsp : t.sp + 2#8 = s.sp := by rw [ht.sp, BitVec.sub_add_cancel]
  exact ⟨_, execRts_granted (h.of_regions ht.regions).grantsAll_return, rfl, congrArg (· + 1#16) hpc, hsp, ht.a, ht.x,
    ht.y, ht.p⟩

/-- Settles O52, by what the call leaves and what the return makes of it. -/
theorem subroutineReturns : Obligations.SubroutineReturns := by
  intro s target q h hw
  obtain ⟨t, hcall, hend, ht⟩ := execJsr_calledFrom h target
  obtain ⟨u, hreturn, hu⟩ := execRts_of_calledFrom h hw (ht.setPc q)
  exact ⟨t, u, hcall, hend, hreturn, hu⟩

end Sys2Proof.Machine
end

section
/-! PROOFS. A pull takes back what a push left: the stack law (R204), and PHP with PLP (R201, R203). -/

namespace Sys2Proof.Machine

open Sys2Proof

/-! ## What a push leaves -/

/-- `t` is `s` after a push of `v` (R47), but for `PC`, the flags, the executor state and the cycles. -/
structure Pushed (v : Byte) (s t : State) : Prop where
  a : t.a = s.a
  x : t.x = s.x
  y : t.y = s.y
  sp : t.sp = s.sp - 1#8
  mem : t.bus.mem = s.bus.mem.write (stackAddr s.sp).toNat v
  regions : t.bus.regions = s.bus.regions

section Pushed

variable {v : Byte} {s t : State}

theorem Pushed.sp_add_one (h : Pushed v s t) : t.sp + 1#8 = s.sp := by
  rw [h.sp, BitVec.sub_add_cancel]

theorem Pushed.wf (h : Pushed v s t) (hw : s.bus.mem.wf = true) : t.bus.mem.wf = true := by
  rw [h.mem]
  exact Memory.write_wf _ _ _ hw

/-- The byte the next pull takes is the one pushed. -/
theorem Pushed.byteAt_top (h : Pushed v s t) (hw : s.bus.mem.wf = true) :
    t.byteAt (stackAddr (t.sp + 1#8)) = v := by
  rw [h.sp_add_one, State.byteAt, Bus.peek, h.mem, Memory.read_write_same _ _ _ hw]

/-- The byte the pull after that takes is the one the next pull would have taken before the push. -/
theorem Pushed.byteAt_below_top (h : Pushed v s t) :
    t.byteAt (stackAddr (t.sp + 1#8 + 1#8)) = s.byteAt (stackAddr (s.sp + 1#8)) := by
  have hne : stackAddr (s.sp + 1#8) ≠ stackAddr s.sp := by
    rw [Ne, stackAddr_inj]
    bv_omega
  rw [h.sp_add_one, State.byteAt, Bus.peek, h.mem, Memory.read_write_other _ _ fun hn => hne (BitVec.eq_of_toNat_eq hn)]
  rfl

end Pushed

/-! ## The stack law -/

/-- Plain memory grants every access to the stack page. -/
def State.grantsStack (s : State) : Prop :=
  ∀ sp : Byte, s.bus.canRead (stackAddr sp) = true ∧ s.bus.canWrite (stackAddr sp) = true

/-- What the stack page grants is the windows' to say. -/
theorem State.grantsStack.of_regions {s t : State} (h : s.grantsStack) (hr : t.bus.regions = s.bus.regions) :
    t.grantsStack := fun sp =>
  ⟨(Bus.grants_of_regions hr (.read _ 0#8)).trans (h sp).1, (Bus.grants_of_regions hr (.write _ 0#8)).trans (h sp).2⟩

theorem push_pushed {s : State} (h : s.grantsStack) (v : Byte) : ∃ t, push v s = .ok () t ∧ Pushed v s t :=
  ⟨_, push_granted (h _).2, ⟨rfl, rfl, rfl, rfl, rfl, rfl⟩⟩

/-- Two pulls return the two bytes below the top of the stack and move `SP` over both. -/
theorem pull_pull {s : State} (h : s.grantsStack) :
    ∃ t, ((pull s).bind fun first s => (pull s).bind fun second s => Flow.ok (first, second) s) =
      .ok (s.byteAt (stackAddr (s.sp + 1#8)), s.byteAt (stackAddr (s.sp + 1#8 + 1#8))) t ∧
      t.sp = s.sp + 1#8 + 1#8 := by
  have hsecond : State.grantsStack ((s.after [s.readCycleAt (stackAddr (s.sp + 1#8))]).setSp (s.sp + 1#8)) :=
    h.of_regions rfl
  rw [pull_granted (h _).1, Flow.bind_ok, pull_granted (hsecond _).1, Flow.bind_ok]
  exact ⟨_, rfl, rfl⟩

/-- Settles O21: the second push leaves the byte of the first below its own. -/
theorem stackLaw : Obligations.StackLaw := by
  intro s u w hw (hg : s.grantsStack)
  obtain ⟨s₁, hpush₁, h₁⟩ := push_pushed hg u
  have hg₁ : s₁.grantsStack := hg.of_regions h₁.regions
  obtain ⟨s₂, hpush₂, h₂⟩ := push_pushed hg₁ w
  obtain ⟨t, hpulls, hsp⟩ := pull_pull (hg₁.of_regions h₂.regions)
  rw [hpush₁, Flow.bind_ok, hpush₂, Flow.bind_ok, hpulls, h₂.byteAt_top (h₁.wf hw), h₂.byteAt_below_top,
    h₁.byteAt_top hw]
  exact ⟨t, rfl, by rw [hsp, h₂.sp_add_one, h₁.sp_add_one]⟩

/-! ## The status register on the stack -/

/-- The two bits that a push sets high are ignored when the byte is pulled (R27, R28). -/
theorem updateFromByte_pushedStatusByte (p : Flags) : updateFromByte (pushedStatusByte p) = p := by
  obtain ⟨hc, hz, hi, hd, -, -, hv, hn⟩ := statusByteViews.1 p
  simp only [updateFromByte, pushedStatusByte, bitOf, BitVec.getLsbD_or, hc, hz, hi, hd, hv, hn]
  simp

theorem execPhp_pushed {s : State} (h : s.plainRam) :
    ∃ t, execPhp s = .next t ∧ t.e = .fetchOpcode ∧ t.p = s.p ∧ Pushed (pushedStatusByte s.p) s t := by
  refine ⟨_, pushOp_granted rfl ?_, rfl, rfl, ⟨rfl, rfl, rfl, rfl, rfl, rfl⟩⟩
  simp [State.grantsAll_cons, State.grantsAll_nil, h.grants_dummyCycle, h.grants_write]

theorem execPlp_of_pushed {p : Flags} {s t : State} (h : s.plainRam) (hw : s.bus.mem.wf = true)
    (ht : Pushed (pushedStatusByte p) s t) :
    ∃ u, execPlp t = .next u ∧ u.e = .fetchOpcode ∧ u.p = p ∧ u.sp = s.sp ∧ u.a = s.a ∧ u.x = s.x ∧ u.y = s.y := by
  have hram : t.plainRam := h.of_regions ht.regions
  have hflags : updateFromByte (t.byteAt (stackAddr (t.sp + 1#8))) = p := by
    rw [ht.byteAt_top hw, updateFromByte_pushedStatusByte]
  refine ⟨_, pullOp_granted ?_, rfl, hflags, ht.sp_add_one, ht.a, ht.x, ht.y⟩
  simp [State.grantsAll_cons, State.grantsAll_nil, hram.grants_dummyCycle, hram.grants_readCycleAt]

/-- Settles O53, by what PHP leaves and what PLP makes of it. -/
theorem statusSurvivesPushPull : Obligations.StatusSurvivesPushPull := by
  intro s q f h hw
  obtain ⟨t, hpush, hend, hp, ht⟩ := execPhp_pushed h
  have ht' : Pushed (pushedStatusByte s.p) s { t with pc := q, p := f } := { ht with }
  obtain ⟨u, hpull, hu⟩ := execPlp_of_pushed h hw ht'
  exact ⟨t, u, hpush, hend, hp, hpull, hu⟩

end Sys2Proof.Machine
end

section
/-! PROOFS. The flag instructions, NOP and the halt byte (R210 to R218). -/

namespace Sys2Proof.Machine

open Sys2Proof

/-- Settles O34, by the implied sequence with the operation of each: one flag written, or nothing for NOP. -/
theorem flagInstructionResults : Obligations.FlagInstructionResults := by
  intro s hg
  exact ⟨⟨rfl, impliedOp_granted hg⟩, ⟨rfl, impliedOp_granted hg⟩, ⟨rfl, impliedOp_granted hg⟩,
    ⟨rfl, impliedOp_granted hg⟩, ⟨rfl, impliedOp_granted hg⟩, ⟨rfl, impliedOp_granted hg⟩,
    ⟨rfl, impliedOp_granted hg⟩, ⟨rfl, impliedOp_granted hg, rfl⟩⟩

/-- Settles O7: byte $00 has no entry in the table, so the step ends with the fatal event after its fetch. -/
theorem haltByteStops : Obligations.HaltByteStops := by
  refine ⟨fun s => rfl, fun s hr he hread => ?_⟩
  rw [step_fetchOpcode hr he]
  exact runInstr_of_undispatched (fetchByte_of_answer hread) haltByte_not_dispatched

end Sys2Proof.Machine
end

section
/-! PROOFS. Progress outside `Done` (R230, R245): every cycle under the invariant answers a state, so the cycles that
make up a step do. -/

namespace Sys2Proof.Machine

open Sys2Proof

theorem cycle_reset {s : State} (hr : s.rst = true) : cycle s = .next s.assertReset := by
  simp [cycle, hr]

theorem step_reset {s : State} (hr : s.rst = true) : step s = .next s.assertReset := by
  simp [step, hr]

theorem step_processing {s : State} {h : Handler} (hr : s.rst = false) (he : s.e = .processing h) :
    step s = finishInstr maxHandlerCycles s := by
  simp [step, hr, he]

/-- Outside `Done` a cycle answers a state, whether the reset input is asserted or not (R82, R252). -/
theorem cycle_progress {s : State} (hs : s.Inv) (hdone : ∀ r, s.e ≠ .done r) : ∃ t, cycle s = .next t := by
  cases hr : s.rst with
  | true => exact ⟨_, cycle_reset hr⟩
  | false =>
    obtain ⟨t, -, ht, -⟩ := everyCycleCounts s hs hr hdone
    exact ⟨t, ht⟩

/-- The cycles that finish an instruction all answer: each leaves the invariant to the next. -/
theorem finishInstr_progress (n : Nat) {s : State} (hs : s.Inv) : ∃ t, finishInstr n s = .next t := by
  induction n generalizing s with
  | zero => exact ⟨s, rfl⟩
  | succ n ih =>
    cases he : s.e with
    | fetchOpcode => exact ⟨s, finishInstr_of_boundary _ he⟩
    | done r => exact ⟨s, finishInstr_of_done _ he⟩
    | processing h =>
      obtain ⟨u, hu⟩ := cycle_progress hs (by simp [he])
      obtain ⟨t, ht⟩ := ih (cycleKeepsInvariant s u hs hu)
      exact ⟨t, by simp only [finishInstr, he, hu, ht]⟩

/-- Cycle by cycle, a whole instruction answers. -/
theorem instructionByCycles_progress {s : State} (hs : s.Inv) (hdone : ∀ r, s.e ≠ .done r) :
    ∃ t, instructionByCycles s = .next t := by
  obtain ⟨u, hu⟩ := cycle_progress hs hdone
  obtain ⟨t, ht⟩ := finishInstr_progress maxHandlerCycles (cycleKeepsInvariant s u hs hu)
  exact ⟨t, by simp only [instructionByCycles, hu, ht]⟩

/-- Settles O16: an asserted reset is answered, and a step from anywhere else is made of cycles that each answer. -/
theorem stepProgress : Obligations.StepProgress := by
  intro s hs hdone
  cases hr : s.rst with
  | true => exact ⟨_, step_reset hr⟩
  | false =>
    cases he : s.e with
    | fetchOpcode =>
      rw [← cyclesMakeTheStep s hr he]
      exact instructionByCycles_progress hs hdone
    | processing h =>
      rw [step_processing hr he]
      exact finishInstr_progress _ hs
    | done r => exact absurd he (hdone r)

end Sys2Proof.Machine
end

section
/-! PROOFS. The reset: the state it gives, from any executor state, and that it alone leaves `Done` (R250 to R252). -/

namespace Sys2Proof.Machine

open Sys2Proof

/-- With the reset input low, `Done` answers a fault in a step and in a cycle, so an answered state is the reset's. -/
theorem rst_of_next_of_done {s t : State} {r : DoneReason} (he : s.e = .done r)
    (h : step s = .next t ∨ cycle s = .next t) : s.rst = true := by
  refine Bool.eq_true_of_not_eq_false fun hr => ?_
  rcases h with hstep | hcycle
  · rw [step_done hr he] at hstep
    cases hstep
  · rw [cycle_done hr he] at hcycle
    cases hcycle

/-- Settles O9: a step and a cycle both answer `State.assertReset`, whose fields are the parameters' and the bus's, and
from `Done` nothing else is answered. -/
theorem assertedReset : Obligations.AssertedReset :=
  ⟨fun s hr => ⟨s.assertReset, step_reset hr, cycle_reset hr, s.assertReset_e, s.assertReset_pc, s.assertReset_cycles,
    s.assertReset_a, s.assertReset_x, s.assertReset_y, s.assertReset_sp, s.assertReset_p, s.assertReset_params,
    s.assertReset_bus⟩, fun _ _ _ he h => rst_of_next_of_done he h⟩

/-- Settles O10, field by field of the reset state. -/
theorem resetState : Obligations.ResetState :=
  ⟨rfl, rfl, rfl, rfl, rfl, rfl, rfl, rfl, rfl⟩

/-- Settles O15: the reset state lists no byte, is at a boundary and has counted no cycle. -/
theorem resetMeetsInvariant : Obligations.ResetMeetsInvariant where
  memory := rfl
  executor := executorLegal_of_boundary rfl
  counted := Nat.zero_le _

end Sys2Proof.Machine
end
